-- ==== Sys2Proof/Word.lean ====
section
/-! DEFINITION. The word types of the block: bytes on the wire and 32-bit words at the request port
(spec 00_scope.md R7: all values are unsigned). -/
namespace Sys2Proof

/-- A byte of a frame (R7). -/
abbrev Byte := BitVec 8

/-- A 32-bit unsigned value: a command word, a backplane address, an address or length operand (R7, R120). -/
abbrev Word := BitVec 32

end Sys2Proof
end

