-- ==== Sys2Proof/Config.lean ====
section
/-! DEFINITION. What an implementation fixes (the OPEN parameters of 00_scope.md R6) and the one free value
(the bits the chip supplies, 10_state.md R30). The values of the decided parameters are in Machine/Params.lean. -/
namespace Sys2Proof

/-- The parameters a model takes as an argument (R6 status OPEN, and XFER_MAX of R12 R102). `State.cfg` carries
them; no step writes them, so a statement about every state holds for every value of them (log 1). -/
structure Params where
  /-- WIN_REG_HIGH, the address of the window register for A[31:24] (D11). -/
  winRegHigh : BitVec 17
  /-- WIN_REG_MED, the address of the window register for A[23:16] (D11). -/
  winRegMed : BitVec 17
  /-- WIN_REG_LOW, the address of the window register for A[15] (D11). -/
  winRegLow : BitVec 17
  /-- ACCESS32_FLAG, the bit OR-ed into the address field of every windowed access (D12). -/
  access32Flag : BitVec 17
  /-- XFER_MAX, the largest read length of a raw XFER (R12, R102, D20). -/
  xferMax : Nat
  deriving DecidableEq, Repr

/-- FREE VALUE (log 4). The level the chip puts on the data line at its n-th sample: under no law (R30). -/
opaque Config.drawBit : Nat → Bool

end Sys2Proof
end

