-- ==== Sys2Proof/Machine/Params.lean ====
section
/-! DEFINITION. The parameters of 00_scope.md R6 that the source gives or the spec decides, and the defaults of
the OPEN ones. -/
namespace Sys2Proof.Machine

/-- CMD_WRITE_BIT (R6, R71, D1). -/
def cmdWriteBit : Nat := 31
/-- CMD_INC_BIT (R6, R71, D1). -/
def cmdIncBit : Nat := 30
/-- CMD_FN_LSB (R6, R71, D1). -/
def cmdFnLsb : Nat := 28
/-- CMD_ADDR_LSB (R6, R71, D1). -/
def cmdAddrLsb : Nat := 11
/-- CMD_LEN_LSB (R6, R71, D1). -/
def cmdLenLsb : Nat := 0
/-- FN_BACKPLANE, the function code of the backplane space (R6, R51). -/
def fnBackplane : BitVec 2 := 1#2
/-- BP_READ_PAD, the turnaround bytes of a backplane read (R6, R151). -/
def bpReadPad : Nat := 4
/-- INC_DEFAULT, the incrementAddress bit of every command a helper builds (R6, R154, D2). PRESUMED by the spec
from general knowledge (log 21). -/
def incDefault : BitVec 1 := 1#1
/-- WIN_FN, the function code of the window registers (R6, R53, D28; 93 G4 warns that the vendor chip differs). -/
def winFn : BitVec 2 := 0#2
/-- LEN_MAX, the largest length inside the envelope (R6, R83, D13). -/
def lenMax : Nat := 1023
/-- The size of a window, 32 KiB (R6 WIN_OFFSET_BITS = 15, R57). -/
def winSize : Nat := 0x8000
/-- T_PWR_LOW_MIN in ms (R6, R108). -/
def tPwrLowMin : Nat := 20
/-- T_PWR_SETTLE_MIN in ms (R6, R108). -/
def tPwrSettleMin : Nat := 250
/-- SEL_ACTIVE: the level of select while asserted (R6, R19, D3). -/
def selActive : Bool := false
/-- CLK_IDLE: the level of the clock between pulses (R6, R20, D3). -/
def clkIdle : Bool := false

/-- The defaults of the OPEN parameters (R6, D11, D12: from general knowledge, not in the source), and an
XFER_MAX that no 32-bit read length exceeds (log 1, log 12). -/
def defaultParams : Params :=
  { winRegHigh := 0x1000C#17, winRegMed := 0x1000B#17, winRegLow := 0x1000A#17,
    access32Flag := 0x08000#17, xferMax := 0xFFFFFFFF }

end Sys2Proof.Machine
end

