-- ==== Sys2Proof/Syntax.lean ====
section
/-! DEFINITION. The requests of the block (30_encoding.md R90), one constructor per row of the operation table,
and the names under which a request image is rejected by the decoder. -/
namespace Sys2Proof

/-- A request: an operation of R90 with its operands in the order R90 writes them. The widths are those of the
request port: fn u2, inc u1, addresses and lengths up to 32 bits (R77, R78, R120, log 13), values exactly 8, 16 or 32
bits (R81). -/
inductive Instr where
  /-- XFER tx, wl, rl -> rx (R100). -/
  | xfer (tx : List Byte) (wl rl : Word)
  /-- PWRON (R108). -/
  | pwron
  /-- PWROFF (R109). -/
  | pwroff
  /-- RDN fn, inc, addr, n -> bytes (R141). -/
  | rdn (fn : BitVec 2) (inc : BitVec 1) (addr n : Word)
  /-- WRN fn, inc, addr, n, b (R142). -/
  | wrn (fn : BitVec 2) (inc : BitVec 1) (addr n : Word) (b : List Byte)
  /-- RD8 fn, addr -> u8 (R143). -/
  | rd8 (fn : BitVec 2) (addr : Word)
  /-- RD16 fn, addr -> u16 (R144). -/
  | rd16 (fn : BitVec 2) (addr : Word)
  /-- RD32 fn, addr -> u32 (R145). -/
  | rd32 (fn : BitVec 2) (addr : Word)
  /-- WR8 fn, addr, u8 (R146). -/
  | wr8 (fn : BitVec 2) (addr : Word) (v : Byte)
  /-- WR16 fn, addr, u16 (R147). -/
  | wr16 (fn : BitVec 2) (addr : Word) (v : BitVec 16)
  /-- WR32 fn, addr, u32 (R148). -/
  | wr32 (fn : BitVec 2) (addr : Word) (v : Word)
  /-- RD32S fn, addr -> u32 (R149). -/
  | rd32s (fn : BitVec 2) (addr : Word)
  /-- WR32S fn, addr, u32 (R150). -/
  | wr32s (fn : BitVec 2) (addr : Word) (v : Word)
  /-- SETWIN A (R171). -/
  | setwin (a : Word)
  /-- BPRDN A, n -> bytes (R173). -/
  | bprdn (a n : Word)
  /-- BPWRN A, n, b (R174). -/
  | bpwrn (a n : Word) (b : List Byte)
  /-- BPRD8 A -> u8 (R175). -/
  | bprd8 (a : Word)
  /-- BPRD16 A -> u16 (R176). -/
  | bprd16 (a : Word)
  /-- BPRD32 A -> u32 (R177). -/
  | bprd32 (a : Word)
  /-- BPWR8 A, u8 (R178). -/
  | bpwr8 (a : Word) (v : Byte)
  /-- BPWR16 A, u16 (R179). -/
  | bpwr16 (a : Word) (v : BitVec 16)
  /-- BPWR32 A, u32 (R180). -/
  | bpwr32 (a : Word) (v : Word)
  deriving DecidableEq, Repr

/-- The rows of the operation table (R90, opcode_table.json), in the table's order. -/
inductive Row where
  | xfer | pwron | pwroff
  | rdn | wrn | rd8 | rd16 | rd32 | wr8 | wr16 | wr32 | rd32s | wr32s
  | setwin | bprdn | bpwrn | bprd8 | bprd16 | bprd32 | bpwr8 | bpwr16 | bpwr32
  deriving DecidableEq, Repr

/-- Why the decoder rejects a request image (log 2). Each is safe: the block then takes no step. -/
inductive DecodeError where
  /-- Fewer bytes than the header of a request image. -/
  | truncated
  /-- The selector byte names no row of the table. -/
  | unknownSelector
  /-- Selector 0, and the command word matches no row's pattern (bit 10 is 1, R72). -/
  | noPattern
  /-- The command word does not match the pattern of the row the selector names. -/
  | patternMismatch
  /-- A bit of the extension words that the row does not use is 1. -/
  | reservedBits
  /-- The number of data bytes is not the row's. -/
  | dataLength
  deriving DecidableEq, Repr

end Sys2Proof
end

