-- ==== Sys2Proof/Machine/State.lean ====
section
/-! DEFINITION. The state of the block (10_state.md), the outcomes' reasons, and the state after block reset
(10_state.md R25). -/
namespace Sys2Proof.Machine

/-- The direction of the data line, seen from the block (R21). -/
inductive Dir where
  | in
  | out
  deriving DecidableEq, Repr

/-- The values of PHASE (R14). -/
inductive Phase where
  | idle
  /-- bit sequencer (R101) -/
  | select | shiftOut | turn | shiftIn | release
  /-- register-access sequencer (R140) -/
  | raEncode | raXfer | raStrip
  /-- window sequencer (R172) -/
  | bwHigh | bwMed | bwLow | bwAccess
  /-- power sequencer (R108) -/
  | pwLow | pwSettle
  deriving DecidableEq, Repr

/-- An event of the wire trace at the pin grain (R9). -/
inductive PinEvent where
  | sel (level : Bool)
  | clk (level : Bool)
  | ddir (d : Dir)
  | dout (bit : Bool)
  | din (bit : Bool)
  | power (level : Bool)
  deriving DecidableEq, Repr

/-- An event of the wire trace at the frame grain, the normative one (R9). -/
inductive FrameEvent where
  | frame (tx rx : List Byte)
  | power (level : Bool)
  deriving DecidableEq, Repr

/-- What a request hands back to the requester (R90: the name after the arrow). -/
inductive Result where
  | none
  | bytes (b : List Byte)
  | u8 (v : Byte)
  | u16 (v : BitVec 16)
  | u32 (v : Word)
  deriving DecidableEq, Repr

/-- The operands of one pass of the register-access sequencer (R140). -/
structure Access where
  write : BitVec 1
  swapped : Bool
  inc : BitVec 1
  fn : BitVec 2
  addr : Word
  n : Word
  data : List Byte
  deriving DecidableEq, Repr

/-- The block raises no fault and detects no error (R190, R203: "fault: never: the block has none"), so there is
no reason to name. -/
inductive Fault where
  deriving DecidableEq, Repr

/-- Why a request has no step (R203). Each is safe: the block would put some frame on the wire, the model says
nothing of it. -/
inductive Refusal where
  /-- Raised by an arm of exec whose instruction has no meaning yet; safe. No arm does. -/
  | notModelled (mnemonic : String)
  /-- Raised by every request presented to exec while BUSY is 1 (R15, R193, R203); safe. -/
  | busy
  /-- Raised by a register access with fn 2 or 3 (R82, R153, R203); safe. -/
  | reservedFunction
  /-- Raised by an access of length 0 (R83, R203); safe. -/
  | zeroLength
  /-- Raised by an access longer than LEN_MAX (R83, R203); safe. -/
  | lengthTooLong
  /-- Raised by a write with fewer than n bytes of data (R153, R203); safe. -/
  | dataTooShort
  /-- Raised by XFER with wl greater than len(tx) (R102, R203); safe. -/
  | sendTooLong
  /-- Raised by XFER with rl greater than XFER_MAX (R102); safe. -/
  | receiveTooLong
  /-- Raised by a windowed access that runs past the end of its window (R182, R203); safe. -/
  | windowCrossing
  /-- Raised by step when the image at the request port is no request (log 2); safe. -/
  | badRequest (why : DecodeError)
  deriving DecidableEq, Repr

/-- The state of the block, of its interfaces and of the observation of its wires. -/
structure State where
  /-- WIN_HIGH, the cached window byte for A[31:24] (R16) -/
  winHigh : Byte
  /-- WIN_MED, for A[23:16] (R16) -/
  winMed : Byte
  /-- WIN_LOW, 0x00 or 0x80 (R16) -/
  winLow : Byte
  /-- WIN_VALID: bit 2 for WIN_HIGH, bit 1 for WIN_MED, bit 0 for WIN_LOW (R17) -/
  winValid : BitVec 3
  /-- PWR, the power line: true is high, chip on (R18) -/
  pwr : Bool
  /-- SEL, active low: false is asserted (R19) -/
  sel : Bool
  /-- CLK (R20) -/
  clk : Bool
  /-- DDIR (R21) -/
  ddir : Dir
  /-- DOUT (R21) -/
  dout : Bool
  /-- BUSY (R15) -/
  busy : Bool
  /-- PHASE of the bit and power sequencer (R14, R101, R108) -/
  phase : Phase
  /-- PHASE of the register-access sequencer (R14, R140) -/
  raPhase : Phase
  /-- PHASE of the window sequencer (R14, R172) -/
  bwPhase : Phase
  /-- BYTECNT (R14, log 7, log 27) -/
  byteCnt : Nat
  /-- BITCNT (R14, log 27) -/
  bitCnt : BitVec 3
  /-- CMD (R11) -/
  cmd : Word
  /-- TXBUF (R12) -/
  txbuf : List Byte
  /-- RXBUF (R12) -/
  rxbuf : List Byte
  /-- SHREG (R13) -/
  shreg : Byte
  /-- operand latch: the request in progress (R10, R31, log 18) -/
  req : Option Instr
  /-- operand latch: the access in progress (R10, R140, log 18) -/
  acc : Option Access
  /-- operand latch: rl of the transfer in progress (R10, R100, log 18) -/
  rxLen : Nat
  /-- the result port: what the last completed request handed back, or the request in progress is about to (R58, R140,
  log 22) -/
  result : Result
  /-- the requester: the images of the requests it will issue, in order (R92, R193, log 17) -/
  requests : List (List Byte)
  /-- the reset input of the block (R210, log 10) -/
  resetIn : Bool
  /-- environment: the bit the chip supplies at its n-th sample, for as long as the list lasts (R30, log 4) -/
  chipBits : List Bool
  /-- how many bits have been sampled (R30, log 4) -/
  drawCount : Nat
  /-- the wire trace at the frame grain, oldest first (R9, log 16) -/
  frames : List FrameEvent
  /-- the wire trace at the pin grain, oldest first (R9, log 16) -/
  pins : List PinEvent
  /-- the least times in ms asked of the delay capability, oldest first (R198, log 11) -/
  delays : List Nat
  /-- the OPEN parameters (R6, log 1) -/
  cfg : Params
  deriving DecidableEq, Repr

/-- The state right after block reset (R25, R210). CMD, TXBUF, RXBUF, SHREG and the three window bytes have no
reset value in the spec: they start at 0 or empty (log 5, DESIGN CHOICE). -/
def State.reset : State :=
  { winHigh := 0#8, winMed := 0#8, winLow := 0#8, winValid := 0#3
    pwr := false, sel := true, clk := false, ddir := .in, dout := false, busy := false
    phase := .idle, raPhase := .idle, bwPhase := .idle, byteCnt := 0, bitCnt := 0#3
    cmd := 0#32, txbuf := [], rxbuf := [], shreg := 0#8
    req := none, acc := none, rxLen := 0
    result := .none, requests := [], resetIn := false
    chipBits := [], drawCount := 0, frames := [], pins := [], delays := []
    cfg := defaultParams }

end Sys2Proof.Machine
end

