-- ==== Sys2Proof/Machine/Flags.lean ====
section
/-! DEFINITION. The flags of the block: BUSY (10_state.md R15) and the three valid bits of the window cache
(10_state.md R17). There are no condition codes (R15). -/
namespace Sys2Proof.Machine

/-- BUSY <- 1 (R15). -/
def setBusy (s : State) : State := { s with busy := true }

/-- differs(i, S.x, v) of R171: the cache byte is invalid or is not v. -/
def differs (s : State) (i : Nat) (cached v : Byte) : Bool := !s.winValid.getLsbD i || cached != v

/-- The valid bit of one cache byte, as a mask (R17): 2 high, 1 med, 0 low. -/
def validBit (i : Nat) : BitVec 3 := 1#3 <<< i

/-- S.WIN_HIGH <- v ; S.WIN_VALID[2] <- 1 (R171). -/
def cacheHigh (v : Byte) (s : State) : State :=
  { s with winHigh := v, winValid := s.winValid ||| validBit 2 }
/-- S.WIN_MED <- v ; S.WIN_VALID[1] <- 1 (R171). -/
def cacheMed (v : Byte) (s : State) : State :=
  { s with winMed := v, winValid := s.winValid ||| validBit 1 }
/-- S.WIN_LOW <- v ; S.WIN_VALID[0] <- 1 (R171). -/
def cacheLow (v : Byte) (s : State) : State :=
  { s with winLow := v, winValid := s.winValid ||| validBit 0 }

end Sys2Proof.Machine
end

