-- ==== Sys2Proof/Machine/Codec.lean ====
section
/-! DEFINITION. The command-word encoder and the byte codecs (41_command_encoder.md R120 to R126), the bit order
of a byte (20_memory.md R40) and the window bytes of an address (43_backplane_window.md R170): pure functions. -/
namespace Sys2Proof.Machine

/-- CMDWORD(write, inc, fn, addr, len) (R120). -/
def cmdWord (write inc : BitVec 1) (fn : BitVec 2) (addr len : Word) : Word :=
  (write.setWidth 32 <<< cmdWriteBit) ||| (inc.setWidth 32 <<< cmdIncBit) |||
    (fn.setWidth 32 <<< cmdFnLsb) ||| ((addr &&& 0x1FFFF#32) <<< cmdAddrLsb) |||
    ((len &&& 0x3FF#32) <<< cmdLenLsb)

/-- The fields CMDDECODE recovers (R126); bit 10 is not returned. -/
structure CmdFields where
  write : BitVec 1
  inc : BitVec 1
  fn : BitVec 2
  addr : BitVec 17
  len : BitVec 10
  deriving DecidableEq, Repr

/-- CMDDECODE(cmd) (R126). -/
def cmdDecode (cmd : Word) : CmdFields :=
  { write := cmd.extractLsb' cmdWriteBit 1, inc := cmd.extractLsb' cmdIncBit 1,
    fn := cmd.extractLsb' cmdFnLsb 2, addr := cmd.extractLsb' cmdAddrLsb 17,
    len := cmd.extractLsb' cmdLenLsb 10 }

/-- Byte i of the wire form of v: (v >> 8i) & 0xFF (R42, R123). -/
def byteOf {w : Nat} (v : BitVec w) (i : Nat) : Byte := (v >>> (8 * i)).setWidth 8

/-- toLE_8 (R123). -/
def toLE8 (v : Byte) : List Byte := [v]
/-- toLE_16 (R123). -/
def toLE16 (v : BitVec 16) : List Byte := [byteOf v 0, byteOf v 1]
/-- toLE_32, the source's u32ToBytes (R123). -/
def toLE32 (v : Word) : List Byte := [byteOf v 0, byteOf v 1, byteOf v 2, byteOf v 3]

/-- CMDBYTES(cmd) = toLE_32(cmd): cmd[7:0] first (R41, R121). -/
def cmdBytes (cmd : Word) : List Byte := toLE32 cmd

/-- The term b[i] << 8i of fromLE_N (R123). A byte past the end reads as 0, which does not occur (log 24). -/
def leTerm (w : Nat) (b : List Byte) (i : Nat) : BitVec w := (b.getD i 0#8).setWidth w <<< (8 * i)

/-- fromLE_8 (R123): the first byte. -/
def fromLE8 (b : List Byte) : Byte := leTerm 8 b 0
/-- fromLE_16 (R123): the first two bytes; the terms are disjoint, so or is the sum. -/
def fromLE16 (b : List Byte) : BitVec 16 := leTerm 16 b 0 ||| leTerm 16 b 1
/-- fromLE_32, the source's bytesToU32 (R123). -/
def fromLE32 (b : List Byte) : Word := leTerm 32 b 0 ||| leTerm 32 b 1 ||| leTerm 32 b 2 ||| leTerm 32 b 3

/-- SWAP16, the source's swap, on each successive group of four bytes (R122). A rest of fewer than four bytes
does not occur and is left as it is (log 24). -/
def swap16 : List Byte → List Byte
  | w0 :: w1 :: w2 :: w3 :: rest => w1 :: w0 :: w3 :: w2 :: swap16 rest
  | rest => rest

/-- roundUp4(n): the least multiple of 4 not less than n (R124, ALIGN = 4). -/
def roundUp4 (n : Nat) : Nat := 4 * ((n + 3) / 4)

/-- zeros(n) (R7). -/
def zeros (n : Nat) : List Byte := List.replicate n 0#8

/-- The bits of a byte in wire order, bit 7 first (R40). -/
def bitsMsb (b : Byte) : List Bool :=
  [b.getLsbD 7, b.getLsbD 6, b.getLsbD 5, b.getLsbD 4, b.getLsbD 3, b.getLsbD 2, b.getLsbD 1, b.getLsbD 0]

/-- SHREG taking one sampled bit at bit 0 and moving the earlier bits up (R13). -/
def shiftInBit (v : Byte) (b : Bool) : Byte := (v <<< 1) ||| (BitVec.ofBool b).setWidth 8

/-- The byte whose bits arrive in this order: the first of eight is bit 7 (R13, R106). -/
def byteOfBits (bits : List Bool) : Byte := bits.foldl shiftInBit 0#8

/-- high(A) = A[31:24] (R170). -/
def highByte (a : Word) : Byte := a.extractLsb' 24 8
/-- med(A) = A[23:16] (R170). -/
def medByte (a : Word) : Byte := a.extractLsb' 16 8
/-- low(A) = (A >> 8) & 0x80 (R170, D8). -/
def lowByte (a : Word) : Byte := ((a >>> 8) &&& 0x80#32).setWidth 8
/-- offset(A) = A & 0x7FFF (R170). -/
def winOffset (a : Word) : Word := a &&& 0x7FFF#32

end Sys2Proof.Machine
end

