-- ==== Sys2Proof/Machine/Envelope.lean ====
section
/-! DEFINITION. The checks of the defined envelope (40_bit_transport.md R102, 42_register_access.md R153,
43_backplane_window.md R182): each says that one bound of a request holds. -/
namespace Sys2Proof.Machine

/-- fn is 0 or 1 (R82, R153, D19). -/
def fnOk (fn : BitVec 2) : Bool := fn == 0#2 || fn == 1#2
/-- The length is not 0 (R83, D13). -/
def lenPos (n : Word) : Bool := n != 0#32
/-- The length is at most LEN_MAX (R83, D13). -/
def lenFits (n : Word) : Bool := decide (n.toNat ≤ lenMax)
/-- A write brings at least n bytes: len(b) >= n (R142, R153). -/
def dataOk (n : Word) (b : List Byte) : Bool := decide (n.toNat ≤ b.length)
/-- A windowed access ends inside the window of its first byte: offset(A) + n <= 0x8000 (R57, R182, D14). -/
def windowOk (a n : Word) : Bool := decide ((winOffset a).toNat + n.toNat ≤ winSize)
/-- A transfer has the bytes it sends: wl <= len(tx) (R102, D20). -/
def sendOk (tx : List Byte) (wl : Word) : Bool := decide (wl.toNat ≤ tx.length)

end Sys2Proof.Machine
end

