-- ==== Sys2Proof/Machine/Operands.lean ====
section
/-! DEFINITION. Operand forms: from the operands of a request to the bytes of its frame and to its result
(30_encoding.md R73 to R81, 42_register_access.md R140 to R152), and the envelope checks with the refusal each one
leads to (60_exceptions.md R203). -/
namespace Sys2Proof.Machine

/-- pad(fn) of a read: BP_READ_PAD for the backplane function, else 0 (R151). -/
def readPad (fn : BitVec 2) : Nat := if fn = fnBackplane then bpReadPad else 0

/-- The operands of a register read (R141). -/
def readAcc (fn : BitVec 2) (inc : BitVec 1) (addr n : Word) : Access :=
  { write := 0#1, swapped := false, inc := inc, fn := fn, addr := addr, n := n, data := [] }
/-- The operands of a register write (R142). -/
def writeAcc (fn : BitVec 2) (inc : BitVec 1) (addr n : Word) (b : List Byte) : Access :=
  { write := 1#1, swapped := false, inc := inc, fn := fn, addr := addr, n := n, data := b }
/-- The operands of a swapped 32-bit read (R149). -/
def readAccS (fn : BitVec 2) (addr : Word) : Access :=
  { readAcc fn incDefault addr 4#32 with swapped := true }
/-- The operands of a swapped 32-bit write (R150). -/
def writeAccS (fn : BitVec 2) (addr v : Word) : Access :=
  { writeAcc fn incDefault addr 4#32 (toLE32 v) with swapped := true }
/-- The address operand of a windowed access: offset(A) | ACCESS32_FLAG (R79). -/
def winField (cfg : Params) (a : Word) : Word := winOffset a ||| cfg.access32Flag.setWidth 32
/-- The operands of the read behind a SETWIN (R173). -/
def bpReadAcc (cfg : Params) (a n : Word) : Access := readAcc fnBackplane incDefault (winField cfg a) n
/-- The operands of the write behind a SETWIN (R174). -/
def bpWriteAcc (cfg : Params) (a n : Word) (b : List Byte) : Access :=
  writeAcc fnBackplane incDefault (winField cfg a) n b
/-- The operands of a window-register write: WR8(WIN_FN, reg, v) (R171, R80). -/
def winRegAcc (reg : BitVec 17) (v : Byte) : Access :=
  writeAcc winFn incDefault (reg.setWidth 32) 1#32 (toLE8 v)

/-- The command word of an access (R140 RA_ENCODE). -/
def accCmd (a : Access) : Word := cmdWord a.write a.inc a.fn a.addr a.n

/-- The value bytes and the zero filler of a write (R74, R142); nothing for a read. -/
def accData (a : Access) : List Byte :=
  if a.write = 1#1 then a.data.take a.n.toNat ++ zeros (roundUp4 a.n.toNat - a.n.toNat) else []

/-- The bytes an access sends: command bytes, then data, passed through SWAP16 in swapped order (R73 to R75). -/
def accTx (a : Access) : List Byte :=
  let normal := cmdBytes (accCmd a) ++ accData a
  if a.swapped then swap16 normal else normal

/-- The turnaround bytes of an access: only a read has a pad (R151). -/
def accPad (a : Access) : Nat := if a.write = 1#1 then 0 else readPad a.fn

/-- The number of bytes an access receives (R73, R74). -/
def accRl (a : Access) : Nat := if a.write = 1#1 then 0 else roundUp4 a.n.toNat + accPad a

/-- RA_STRIP: the bytes after the pad, passed through SWAP16 in swapped order (R140, R149). -/
def accStrip (a : Access) (rx : List Byte) : List Byte :=
  let d := rx.drop (accPad a)
  if a.swapped then swap16 d else d

/-- The envelope of a register access (R153), with the refusal of the first bound that fails (log 14). -/
def checkReg (fn : BitVec 2) (n : Word) : Option Refusal :=
  if fnOk fn = false then some .reservedFunction
  else if lenPos n = false then some .zeroLength
  else if lenFits n = false then some .lengthTooLong
  else none

/-- The envelope of a windowed access (R182). -/
def checkWin (a n : Word) : Option Refusal :=
  if lenPos n = false then some .zeroLength
  else if lenFits n = false then some .lengthTooLong
  else if windowOk a n = false then some .windowCrossing
  else none

/-- The envelope's bound on the data of a write, after the others (R153, R182). -/
def checkData (n : Word) (b : List Byte) (earlier : Option Refusal) : Option Refusal :=
  match earlier with
  | some r => some r
  | none => if dataOk n b then none else some .dataTooShort

/-- The envelope of a raw transfer (R102). -/
def checkXfer (cfg : Params) (tx : List Byte) (wl rl : Word) : Option Refusal :=
  if sendOk tx wl = false then some .sendTooLong
  else if rl.toNat ≤ cfg.xferMax then none
  else some .receiveTooLong

end Sys2Proof.Machine
end

