-- ==== Sys2Proof/Machine/Ops.lean ====
section
/-! DEFINITION. The named operations over the state: sampling, one transfer, one register access, the power line,
block reset, and how a request is performed. The block takes no exceptions (60_exceptions.md R190, R194), so no
operation enters or leaves one. -/
namespace Sys2Proof.Machine

/-- The bit the chip supplies at sample k: the script's, and beyond it a free value (R30, log 4). -/
def drawAt (script : List Bool) (k : Nat) : Bool := script.getD k (Config.drawBit k)

/-- The eight bits sampled from sample k on, first one first. -/
def drawBits (script : List Bool) (k : Nat) : List Bool :=
  [drawAt script k, drawAt script (k + 1), drawAt script (k + 2), drawAt script (k + 3),
   drawAt script (k + 4), drawAt script (k + 5), drawAt script (k + 6), drawAt script (k + 7)]

/-- The byte sampled from sample k on, most significant bit first (R40, R106). -/
def drawByte (script : List Bool) (k : Nat) : Byte := byteOfBits (drawBits script k)

/-- draw_bytes(n) of R100, from sample k on. -/
def drawBytes (script : List Bool) (k n : Nat) : List Byte :=
  (List.range n).map (fun i => drawByte script (k + 8 * i))

/-- The pin events of one output bit cell (R104). -/
def outCell (b : Bool) : List PinEvent := [.dout b, .clk true, .clk false]
/-- The pin events of one input bit cell (R106). -/
def inCell (b : Bool) : List PinEvent := [.clk true, .din b, .clk false]
/-- The pin events of one byte sent, bit 7 first (R104). -/
def outByte (b : Byte) : List PinEvent := (bitsMsb b).flatMap outCell
/-- The pin events of one byte received, bit 7 first (R106). -/
def inByte (b : Byte) : List PinEvent := (bitsMsb b).flatMap inCell

/-- The pin events of a whole transfer: SELECT, SHIFT_OUT, TURN, SHIFT_IN, RELEASE (R101, R103 to R106). -/
def xferPins (tx rx : List Byte) : List PinEvent :=
  [.sel selActive, .ddir .out] ++ tx.flatMap outByte ++ [.ddir .in] ++ rx.flatMap inByte ++ [.sel (!selActive)]

/-- DOUT after sending tx: the last bit driven, bit 0 of the last byte; unchanged when nothing is sent (R104). -/
def lastDriven (tx : List Byte) (before : Bool) : Bool :=
  match tx.getLast? with
  | some b => b.getLsbD 0
  | none => before

/-- SHREG after a transfer: the last byte assembled; all its bits shifted out when nothing is received (R13,
log 6). -/
def lastShifted (tx rx : List Byte) (before : Byte) : Byte :=
  match rx.getLast? with
  | some r => r
  | none => if tx = [] then before else 0#8

/-- XFER at the frame grain (R100), with the pin events of R103 to R106 and what they leave in the latches: tx is
exactly the bytes sent (the first wl of the operand), rl the number of bytes received. The position is IDLE, 0, 0
again afterwards (R14). -/
def xfer (tx : List Byte) (rl : Nat) (s : State) : State :=
  let rx := drawBytes s.chipBits s.drawCount rl
  { s with
    txbuf := tx, rxbuf := rx, shreg := lastShifted tx rx s.shreg
    sel := !selActive, clk := clkIdle, ddir := .in, dout := lastDriven tx s.dout
    phase := .idle, byteCnt := 0, bitCnt := 0#3
    drawCount := s.drawCount + 8 * rl
    frames := s.frames ++ [.frame tx rx]
    pins := s.pins ++ xferPins tx rx }

/-- One pass of the register-access sequencer: RA_ENCODE and RA_XFER (R140). RXBUF holds what came back. -/
def regAccess (a : Access) (s : State) : State := xfer (accTx a) (accRl a) { s with cmd := accCmd a }

/-- S.PWR <- level ; emit Power(level), at both grains (R108, R109). -/
def setPower (level : Bool) (s : State) : State :=
  { s with pwr := level, frames := s.frames ++ [.power level], pins := s.pins ++ [.power level] }

/-- wait_at_least(ms): the delay capability is asked and returns (R198, log 11). -/
def waitAtLeast (ms : Nat) (s : State) : State := { s with delays := s.delays ++ [ms] }

/-- A request completes: the sequencers are idle, the operand latches empty, the result is handed to the requester
and BUSY falls (R14, R15, R140). -/
def complete (r : Result) (s : State) : State :=
  { s with
    busy := false, phase := .idle, raPhase := .idle, bwPhase := .idle, byteCnt := 0, bitCnt := 0#3
    req := none, acc := none, rxLen := 0, result := r }

/-- A request is performed: refused while BUSY is 1 (R15, R193, log 26), refused outside the envelope (R203), else run to
completion as one big step (D22). -/
def perform (check : Option Refusal) (run : State → State) (res : State → Result) (s : State) :
    Host.Outcome State Fault Refusal :=
  if s.busy then .refused .busy
  else
    match check with
    | some r => .refused r
    | none =>
      let t := run (setBusy s)
      .next (complete (res t) t)

/-- A register access performed as a request; its result is read from the bytes after the pad (R140). -/
def performReg (check : Option Refusal) (a : Access) (res : List Byte → Result) (s : State) :
    Host.Outcome State Fault Refusal :=
  perform check (regAccess a) (fun t => res (accStrip a t.rxbuf)) s

/-- Block reset (R210): every state element takes its reset value of R25; a request in progress is abandoned
without result; a frame in progress is cut short by the release of select; Power(0) is emitted if PWR was 1. The
requester's queue, the chip, the observation and the parameters are not the block's and stay (log 9). -/
def blockReset (s : State) : State :=
  { State.reset with
    requests := s.requests, chipBits := s.chipBits, drawCount := s.drawCount, delays := s.delays, cfg := s.cfg
    frames := s.frames ++ (if s.pwr then [.power false] else [])
    pins := s.pins ++ (if s.sel = selActive then [.sel (!selActive)] else [])
      ++ (if s.pwr then [.power false] else []) }

end Sys2Proof.Machine
end

