-- ==== Sys2Proof/Machine/RegAccess.lean ====
section
/-! DEFINITION. The register-access family (42_register_access.md): RDN, WRN, the width helpers and the swapped
pair. -/
namespace Sys2Proof.Machine

/-- RDN fn, inc, addr, n -> bytes (R141, R152): all roundUp4(n) bytes after the pad (log 23). -/
def execRdn (fn : BitVec 2) (inc : BitVec 1) (addr n : Word) (s : State) : Host.Outcome State Fault Refusal :=
  performReg (checkReg fn n) (readAcc fn inc addr n) .bytes s

/-- WRN fn, inc, addr, n, b (R142). -/
def execWrn (fn : BitVec 2) (inc : BitVec 1) (addr n : Word) (b : List Byte) (s : State) :
    Host.Outcome State Fault Refusal :=
  performReg (checkData n b (checkReg fn n)) (writeAcc fn inc addr n b) (fun _ => .none) s

/-- RD8 fn, addr -> u8 (R143). -/
def execRd8 (fn : BitVec 2) (addr : Word) (s : State) : Host.Outcome State Fault Refusal :=
  performReg (checkReg fn 1#32) (readAcc fn incDefault addr 1#32) (fun d => .u8 (fromLE8 d)) s

/-- RD16 fn, addr -> u16 (R144). -/
def execRd16 (fn : BitVec 2) (addr : Word) (s : State) : Host.Outcome State Fault Refusal :=
  performReg (checkReg fn 2#32) (readAcc fn incDefault addr 2#32) (fun d => .u16 (fromLE16 d)) s

/-- RD32 fn, addr -> u32 (R145). -/
def execRd32 (fn : BitVec 2) (addr : Word) (s : State) : Host.Outcome State Fault Refusal :=
  performReg (checkReg fn 4#32) (readAcc fn incDefault addr 4#32) (fun d => .u32 (fromLE32 d)) s

/-- WR8 fn, addr, v (R146). -/
def execWr8 (fn : BitVec 2) (addr : Word) (v : Byte) (s : State) : Host.Outcome State Fault Refusal :=
  performReg (checkReg fn 1#32) (writeAcc fn incDefault addr 1#32 (toLE8 v)) (fun _ => .none) s

/-- WR16 fn, addr, v (R147). -/
def execWr16 (fn : BitVec 2) (addr : Word) (v : BitVec 16) (s : State) : Host.Outcome State Fault Refusal :=
  performReg (checkReg fn 2#32) (writeAcc fn incDefault addr 2#32 (toLE16 v)) (fun _ => .none) s

/-- WR32 fn, addr, v (R148). -/
def execWr32 (fn : BitVec 2) (addr v : Word) (s : State) : Host.Outcome State Fault Refusal :=
  performReg (checkReg fn 4#32) (writeAcc fn incDefault addr 4#32 (toLE32 v)) (fun _ => .none) s

/-- RD32S fn, addr -> u32 (R149): the command bytes go out swapped, the four data bytes are swapped back. -/
def execRd32s (fn : BitVec 2) (addr : Word) (s : State) : Host.Outcome State Fault Refusal :=
  performReg (checkReg fn 4#32) (readAccS fn addr) (fun d => .u32 (fromLE32 d)) s

/-- WR32S fn, addr, v (R150): all eight frame bytes go out swapped. -/
def execWr32s (fn : BitVec 2) (addr v : Word) (s : State) : Host.Outcome State Fault Refusal :=
  performReg (checkReg fn 4#32) (writeAccS fn addr v) (fun _ => .none) s

end Sys2Proof.Machine
end

