-- ==== Sys2Proof/Machine/Transport.lean ====
section
/-! DEFINITION. The bit-transport family (40_bit_transport.md): XFER, PWRON, PWROFF. -/
namespace Sys2Proof.Machine

/-- XFER tx, wl, rl -> rx (R100): exactly the first wl bytes of tx are sent. -/
def execXfer (tx : List Byte) (wl rl : Word) (s : State) : Host.Outcome State Fault Refusal :=
  perform (checkXfer s.cfg tx wl rl) (xfer (tx.take wl.toNat) rl.toNat) (fun t => .bytes t.rxbuf) s

/-- PWRON (R108): low, wait at least T_PWR_LOW_MIN, high, wait at least T_PWR_SETTLE_MIN. -/
def execPwron (s : State) : Host.Outcome State Fault Refusal :=
  perform none
    (fun t => waitAtLeast tPwrSettleMin (setPower true (waitAtLeast tPwrLowMin (setPower false t))))
    (fun _ => .none) s

/-- PWROFF (R109): the power line is dropped. -/
def execPwroff (s : State) : Host.Outcome State Fault Refusal :=
  perform none (setPower false) (fun _ => .none) s

end Sys2Proof.Machine
end

