-- ==== Sys2Proof/Machine/Window.lean ====
section
/-! DEFINITION. The backplane-window family (43_backplane_window.md): SETWIN and the windowed accesses. -/
namespace Sys2Proof.Machine

/-- BW_HIGH (R171, R172): if the high byte differs, its window-register write, then the cache byte (R183). -/
def winStepHigh (a : Word) (s : State) : State :=
  if differs s 2 s.winHigh (highByte a) then
    cacheHigh (highByte a) (regAccess (winRegAcc s.cfg.winRegHigh (highByte a)) s)
  else s

/-- BW_MED (R171, R172). -/
def winStepMed (a : Word) (s : State) : State :=
  if differs s 1 s.winMed (medByte a) then
    cacheMed (medByte a) (regAccess (winRegAcc s.cfg.winRegMed (medByte a)) s)
  else s

/-- BW_LOW (R171, R172). -/
def winStepLow (a : Word) (s : State) : State :=
  if differs s 0 s.winLow (lowByte a) then
    cacheLow (lowByte a) (regAccess (winRegAcc s.cfg.winRegLow (lowByte a)) s)
  else s

/-- SETWIN(A) (R171): high, med, low, in that order. -/
def setWindow (a : Word) (s : State) : State := winStepLow a (winStepMed a (winStepHigh a s))

/-- A windowed access performed as a request: SETWIN(A), then BW_ACCESS (R172 to R174). -/
def performWin (check : Option Refusal) (target : Word) (a : Access) (res : List Byte → Result) (s : State) :
    Host.Outcome State Fault Refusal :=
  perform check (fun t => regAccess a (setWindow target t)) (fun t => res (accStrip a t.rxbuf)) s

/-- SETWIN A (R171). -/
def execSetwin (a : Word) (s : State) : Host.Outcome State Fault Refusal :=
  perform none (setWindow a) (fun _ => .none) s

/-- BPRDN A, n -> bytes (R173). -/
def execBprdn (a n : Word) (s : State) : Host.Outcome State Fault Refusal :=
  performWin (checkWin a n) a (bpReadAcc s.cfg a n) .bytes s

/-- BPWRN A, n, b (R174). -/
def execBpwrn (a n : Word) (b : List Byte) (s : State) : Host.Outcome State Fault Refusal :=
  performWin (checkData n b (checkWin a n)) a (bpWriteAcc s.cfg a n b) (fun _ => .none) s

/-- BPRD8 A -> u8 (R175). -/
def execBprd8 (a : Word) (s : State) : Host.Outcome State Fault Refusal :=
  performWin (checkWin a 1#32) a (bpReadAcc s.cfg a 1#32) (fun d => .u8 (fromLE8 d)) s

/-- BPRD16 A -> u16 (R176). -/
def execBprd16 (a : Word) (s : State) : Host.Outcome State Fault Refusal :=
  performWin (checkWin a 2#32) a (bpReadAcc s.cfg a 2#32) (fun d => .u16 (fromLE16 d)) s

/-- BPRD32 A -> u32 (R177). -/
def execBprd32 (a : Word) (s : State) : Host.Outcome State Fault Refusal :=
  performWin (checkWin a 4#32) a (bpReadAcc s.cfg a 4#32) (fun d => .u32 (fromLE32 d)) s

/-- BPWR8 A, v (R178). -/
def execBpwr8 (a : Word) (v : Byte) (s : State) : Host.Outcome State Fault Refusal :=
  performWin (checkWin a 1#32) a (bpWriteAcc s.cfg a 1#32 (toLE8 v)) (fun _ => .none) s

/-- BPWR16 A, v (R179). -/
def execBpwr16 (a : Word) (v : BitVec 16) (s : State) : Host.Outcome State Fault Refusal :=
  performWin (checkWin a 2#32) a (bpWriteAcc s.cfg a 2#32 (toLE16 v)) (fun _ => .none) s

/-- BPWR32 A, v (R180). -/
def execBpwr32 (a v : Word) (s : State) : Host.Outcome State Fault Refusal :=
  performWin (checkWin a 4#32) a (bpWriteAcc s.cfg a 4#32 (toLE32 v)) (fun _ => .none) s

end Sys2Proof.Machine
end

