-- ==== Sys2Proof/Machine/Dispatch.lean ====
section
/-! DEFINITION. exec: the meaning of every request, one arm per row of the operation table (30_encoding.md R90). -/
namespace Sys2Proof.Machine

def exec (i : Instr) (s : State) : Host.Outcome State Fault Refusal :=
  match i with
  | .xfer tx wl rl => Sys2Proof.Machine.execXfer tx wl rl s
  | .pwron => Sys2Proof.Machine.execPwron s
  | .pwroff => Sys2Proof.Machine.execPwroff s
  | .rdn fn inc addr n => Sys2Proof.Machine.execRdn fn inc addr n s
  | .wrn fn inc addr n b => Sys2Proof.Machine.execWrn fn inc addr n b s
  | .rd8 fn addr => Sys2Proof.Machine.execRd8 fn addr s
  | .rd16 fn addr => Sys2Proof.Machine.execRd16 fn addr s
  | .rd32 fn addr => Sys2Proof.Machine.execRd32 fn addr s
  | .wr8 fn addr v => Sys2Proof.Machine.execWr8 fn addr v s
  | .wr16 fn addr v => Sys2Proof.Machine.execWr16 fn addr v s
  | .wr32 fn addr v => Sys2Proof.Machine.execWr32 fn addr v s
  | .rd32s fn addr => Sys2Proof.Machine.execRd32s fn addr s
  | .wr32s fn addr v => Sys2Proof.Machine.execWr32s fn addr v s
  | .setwin a => Sys2Proof.Machine.execSetwin a s
  | .bprdn a n => Sys2Proof.Machine.execBprdn a n s
  | .bpwrn a n b => Sys2Proof.Machine.execBpwrn a n b s
  | .bprd8 a => Sys2Proof.Machine.execBprd8 a s
  | .bprd16 a => Sys2Proof.Machine.execBprd16 a s
  | .bprd32 a => Sys2Proof.Machine.execBprd32 a s
  | .bpwr8 a v => Sys2Proof.Machine.execBpwr8 a v s
  | .bpwr16 a v => Sys2Proof.Machine.execBpwr16 a v s
  | .bpwr32 a v => Sys2Proof.Machine.execBpwr32 a v s

end Sys2Proof.Machine
end

