-- ==== Sys2Proof/Decode.lean ====
section
/-! DEFINITION. The decoder and encoder of request images, and decodeTableWord.

The spec fixes no binary encoding of the request port (R92); the model needs one, and it is the model's own
(log 2). A request image is

    bytes 0 to 3    the command word of the request (R90's pattern), little-endian (R41)
    byte 4          the selector: the row's number in opcode_table.json (1 to 22), or 0
    bytes 5 to 8    extension A, little-endian: the address bits the command word has no room for
    bytes 9 to 12   extension N, little-endian: the length bits the command word has no room for
    then            the value bytes of a write, or the tx bytes of XFER

Every operand bit stands in exactly one place. The patterns of the table overlap by design (R93); with selector 0
the most specific row whose pattern the word has is taken (log 3). -/
namespace Sys2Proof
open Machine

/-- The fixed bits of a row's command word (opcode_table.json "mask"); every bit for the rows that emit no single
word: 0 stands there for XFER, PWRON and PWROFF. -/
def rowMask : Row → Word
  | .xfer => 0xFFFFFFFF#32 | .pwron => 0xFFFFFFFF#32 | .pwroff => 0xFFFFFFFF#32
  | .rdn => 0x80000400#32 | .wrn => 0x80000400#32
  | .rd8 => 0xC00007FF#32 | .rd16 => 0xC00007FF#32 | .rd32 => 0xC00007FF#32
  | .wr8 => 0xC00007FF#32 | .wr16 => 0xC00007FF#32 | .wr32 => 0xC00007FF#32
  | .rd32s => 0xC00007FF#32 | .wr32s => 0xC00007FF#32
  | .setwin => 0xF00007FF#32
  | .bprdn => 0xFC000400#32 | .bpwrn => 0xFC000400#32
  | .bprd8 => 0xFC0007FF#32 | .bprd16 => 0xFC0007FF#32 | .bprd32 => 0xFC0007FF#32
  | .bpwr8 => 0xFC0007FF#32 | .bpwr16 => 0xFC0007FF#32 | .bpwr32 => 0xFC0007FF#32

/-- The values of a row's fixed bits (opcode_table.json "match"). -/
def rowMatch : Row → Word
  | .xfer => 0#32 | .pwron => 0#32 | .pwroff => 0#32
  | .rdn => 0x00000000#32 | .wrn => 0x80000000#32
  | .rd8 => 0x40000001#32 | .rd16 => 0x40000002#32 | .rd32 => 0x40000004#32
  | .wr8 => 0xC0000001#32 | .wr16 => 0xC0000002#32 | .wr32 => 0xC0000004#32
  | .rd32s => 0x40000004#32 | .wr32s => 0xC0000004#32
  | .setwin => 0xC0000001#32
  | .bprdn => 0x54000000#32 | .bpwrn => 0xD4000000#32
  | .bprd8 => 0x54000001#32 | .bprd16 => 0x54000002#32 | .bprd32 => 0x54000004#32
  | .bpwr8 => 0xD4000001#32 | .bpwr16 => 0xD4000002#32 | .bpwr32 => 0xD4000004#32

/-- The word c has the row's pattern. -/
def rowMatches (r : Row) (c : Word) : Bool := c &&& rowMask r == rowMatch r

/-- The row's number in opcode_table.json, from 1. -/
def rowSel : Row → Byte
  | .xfer => 1#8 | .pwron => 2#8 | .pwroff => 3#8 | .rdn => 4#8 | .wrn => 5#8
  | .rd8 => 6#8 | .rd16 => 7#8 | .rd32 => 8#8 | .wr8 => 9#8 | .wr16 => 10#8 | .wr32 => 11#8
  | .rd32s => 12#8 | .wr32s => 13#8 | .setwin => 14#8 | .bprdn => 15#8 | .bpwrn => 16#8
  | .bprd8 => 17#8 | .bprd16 => 18#8 | .bprd32 => 19#8 | .bpwr8 => 20#8 | .bpwr16 => 21#8 | .bpwr32 => 22#8

/-- All rows, in the table's order. -/
def allRows : List Row :=
  [.xfer, .pwron, .pwroff, .rdn, .wrn, .rd8, .rd16, .rd32, .wr8, .wr16, .wr32, .rd32s, .wr32s,
   .setwin, .bprdn, .bpwrn, .bprd8, .bprd16, .bprd32, .bpwr8, .bpwr16, .bpwr32]

/-- The rows a bare command word can stand for, most specific first: RD32S, WR32S and SETWIN have no word of
their own (R93), so a bare word is never theirs (log 3). -/
def wordRows : List Row :=
  [.bprd8, .bprd16, .bprd32, .bpwr8, .bpwr16, .bpwr32, .rd8, .rd16, .rd32, .wr8, .wr16, .wr32,
   .bprdn, .bpwrn, .rdn, .wrn]

/-- The row an image is decoded as. -/
def rowOf (c : Word) (sel : Byte) : Except DecodeError Row :=
  if sel = 0#8 then
    match wordRows.find? (fun r => rowMatches r c) with
    | some r => .ok r
    | none => .error .noPattern
  else
    match allRows.find? (fun r => rowSel r == sel) with
    | some r => if rowMatches r c then .ok r else .error .patternMismatch
    | none => .error .unknownSelector

/-- The address of a register access: bits 31:17 from extension A, bits 16:0 from the word (R77). -/
def regAddrOf (c xa : Word) : Word := (xa <<< 17) ||| (cmdDecode c).addr.setWidth 32
/-- The address of a windowed access: A[31:15] from extension A, the offset A[14:0] from the word (R79). -/
def winAddrOf (c xa : Word) : Word := (xa <<< 15) ||| ((cmdDecode c).addr.setWidth 32 &&& 0x7FFF#32)
/-- The length: bits 31:10 from extension N, bits 9:0 from the word (R78). -/
def lenOf (c xn : Word) : Word := (xn <<< 10) ||| (cmdDecode c).len.setWidth 32

/-- A register access: extension A has 15 bits and extension N as many as the row uses. -/
def regForm (nBits : Nat) (xa xn : Word) (i : Instr) : Except DecodeError Instr :=
  if xa >>> 15 = 0#32 ∧ xn >>> nBits = 0#32 then .ok i else .error .reservedBits

/-- A windowed access: extension A has 17 bits and extension N as many as the row uses. -/
def winForm (nBits : Nat) (xa xn : Word) (i : Instr) : Except DecodeError Instr :=
  if xa >>> 17 = 0#32 ∧ xn >>> nBits = 0#32 then .ok i else .error .reservedBits

/-- A request that carries no value bytes. -/
def noData (data : List Byte) (r : Except DecodeError Instr) : Except DecodeError Instr :=
  if data = [] then r else .error .dataLength

/-- A request that carries exactly k value bytes. -/
def dataOf (k : Nat) (data : List Byte) (r : Except DecodeError Instr) : Except DecodeError Instr :=
  if data.length = k then r else .error .dataLength

/-- The instruction of an image whose row is known: one line per row of the table. -/
def decodeRow (r : Row) (c xa xn : Word) (data : List Byte) : Except DecodeError Instr :=
  let d := cmdDecode c
  match r with
  | .xfer => .ok (.xfer data xa xn)
  | .pwron => noData data (if xa = 0#32 ∧ xn = 0#32 then .ok .pwron else .error .reservedBits)
  | .pwroff => noData data (if xa = 0#32 ∧ xn = 0#32 then .ok .pwroff else .error .reservedBits)
  | .rdn => noData data (regForm 22 xa xn (.rdn d.fn d.inc (regAddrOf c xa) (lenOf c xn)))
  | .wrn => regForm 22 xa xn (.wrn d.fn d.inc (regAddrOf c xa) (lenOf c xn) data)
  | .rd8 => noData data (regForm 0 xa xn (.rd8 d.fn (regAddrOf c xa)))
  | .rd16 => noData data (regForm 0 xa xn (.rd16 d.fn (regAddrOf c xa)))
  | .rd32 => noData data (regForm 0 xa xn (.rd32 d.fn (regAddrOf c xa)))
  | .wr8 => dataOf 1 data (regForm 0 xa xn (.wr8 d.fn (regAddrOf c xa) (fromLE8 data)))
  | .wr16 => dataOf 2 data (regForm 0 xa xn (.wr16 d.fn (regAddrOf c xa) (fromLE16 data)))
  | .wr32 => dataOf 4 data (regForm 0 xa xn (.wr32 d.fn (regAddrOf c xa) (fromLE32 data)))
  | .rd32s => noData data (regForm 0 xa xn (.rd32s d.fn (regAddrOf c xa)))
  | .wr32s => dataOf 4 data (regForm 0 xa xn (.wr32s d.fn (regAddrOf c xa) (fromLE32 data)))
  | .setwin => noData data (if d.addr = 0#17 ∧ xn = 0#32 then .ok (.setwin xa) else .error .reservedBits)
  | .bprdn => noData data (winForm 22 xa xn (.bprdn (winAddrOf c xa) (lenOf c xn)))
  | .bpwrn => winForm 22 xa xn (.bpwrn (winAddrOf c xa) (lenOf c xn) data)
  | .bprd8 => noData data (winForm 0 xa xn (.bprd8 (winAddrOf c xa)))
  | .bprd16 => noData data (winForm 0 xa xn (.bprd16 (winAddrOf c xa)))
  | .bprd32 => noData data (winForm 0 xa xn (.bprd32 (winAddrOf c xa)))
  | .bpwr8 => dataOf 1 data (winForm 0 xa xn (.bpwr8 (winAddrOf c xa) (fromLE8 data)))
  | .bpwr16 => dataOf 2 data (winForm 0 xa xn (.bpwr16 (winAddrOf c xa) (fromLE16 data)))
  | .bpwr32 => dataOf 4 data (winForm 0 xa xn (.bpwr32 (winAddrOf c xa) (fromLE32 data)))

/-- The decoder, total on any bytes: one image holds one request. -/
def decode : List Byte → Except DecodeError Instr
  | c0 :: c1 :: c2 :: c3 :: sel :: a0 :: a1 :: a2 :: a3 :: n0 :: n1 :: n2 :: n3 :: data =>
    let c := fromLE32 [c0, c1, c2, c3]
    match rowOf c sel with
    | .ok r => decodeRow r c (fromLE32 [a0, a1, a2, a3]) (fromLE32 [n0, n1, n2, n3]) data
    | .error e => .error e
  | _ => .error .truncated

/-- A request image from its parts. -/
def image (c : Word) (r : Row) (xa xn : Word) (data : List Byte) : List Byte :=
  cmdBytes c ++ [rowSel r] ++ toLE32 xa ++ toLE32 xn ++ data

/-- The image of a register access: the word of R71 and what it has no room for. -/
def regImage (r : Row) (write inc : BitVec 1) (fn : BitVec 2) (addr len xn : Word) (data : List Byte) : List Byte :=
  image (cmdWord write inc fn addr len) r (addr >>> 17) xn data

/-- The image of a windowed access: the table's pattern 0 1 ooooooooooooooo of the address field (R79). -/
def winImage (r : Row) (write : BitVec 1) (a len xn : Word) (data : List Byte) : List Byte :=
  image (cmdWord write 1#1 1#2 (winOffset a ||| 0x8000#32) len) r (a >>> 15) xn data

/-- The encoder, from the same table (R90). -/
def encode : Instr → List Byte
  | .xfer tx wl rl => image 0#32 .xfer wl rl tx
  | .pwron => image 0#32 .pwron 0#32 0#32 []
  | .pwroff => image 0#32 .pwroff 0#32 0#32 []
  | .rdn fn inc addr n => regImage .rdn 0#1 inc fn addr n (n >>> 10) []
  | .wrn fn inc addr n b => regImage .wrn 1#1 inc fn addr n (n >>> 10) b
  | .rd8 fn addr => regImage .rd8 0#1 1#1 fn addr 1#32 0#32 []
  | .rd16 fn addr => regImage .rd16 0#1 1#1 fn addr 2#32 0#32 []
  | .rd32 fn addr => regImage .rd32 0#1 1#1 fn addr 4#32 0#32 []
  | .wr8 fn addr v => regImage .wr8 1#1 1#1 fn addr 1#32 0#32 (toLE8 v)
  | .wr16 fn addr v => regImage .wr16 1#1 1#1 fn addr 2#32 0#32 (toLE16 v)
  | .wr32 fn addr v => regImage .wr32 1#1 1#1 fn addr 4#32 0#32 (toLE32 v)
  | .rd32s fn addr => regImage .rd32s 0#1 1#1 fn addr 4#32 0#32 []
  | .wr32s fn addr v => regImage .wr32s 1#1 1#1 fn addr 4#32 0#32 (toLE32 v)
  | .setwin a => image (cmdWord 1#1 1#1 0#2 0#32 1#32) .setwin a 0#32 []
  | .bprdn a n => winImage .bprdn 0#1 a n (n >>> 10) []
  | .bpwrn a n b => winImage .bpwrn 1#1 a n (n >>> 10) b
  | .bprd8 a => winImage .bprd8 0#1 a 1#32 0#32 []
  | .bprd16 a => winImage .bprd16 0#1 a 2#32 0#32 []
  | .bprd32 a => winImage .bprd32 0#1 a 4#32 0#32 []
  | .bpwr8 a v => winImage .bpwr8 1#1 a 1#32 0#32 (toLE8 v)
  | .bpwr16 a v => winImage .bpwr16 1#1 a 2#32 0#32 (toLE16 v)
  | .bpwr32 a v => winImage .bpwr32 1#1 a 4#32 0#32 (toLE32 v)

/-- The image of a bare table word: the word, then zeros: selector 0, no extension, and for a word with the write
bit as many zero value bytes as its length field says (R74). -/
def tableImage (w : Nat) : List Byte :=
  let c := BitVec.ofNat 32 w
  cmdBytes c ++ zeros 9 ++ (if c.getLsbD cmdWriteBit then zeros (cmdDecode c).len.toNat else [])

/-- The instruction the decoder reads from a table word (bit 0 the least significant bit of the command word, as
opcode_table.json numbers them, R93). The rows with no word (XFER, PWRON, PWROFF) have none. -/
def decodeTableWord (nbits w : Nat) : Option Instr :=
  if nbits = 32 then
    match decode (tableImage w) with
    | .ok i => some i
    | .error _ => none
  else none

end Sys2Proof
end

