-- ==== Sys2Proof/Machine/Fetch.lean ====
section
/-! DEFINITION. How the block takes its next request from the request port (10_state.md R15, 60_exceptions.md R193),
and how a request is placed there. There is no program counter and no instruction memory (10_state.md R14): the
requester issues (log 17). -/
namespace Sys2Proof.Machine

/-- What the idle block finds at its request port. -/
inductive Fetched where
  /-- No request: the block does nothing (R212). -/
  | nothing
  /-- An image that is no request (log 2). -/
  | bad (why : DecodeError)
  /-- A request, and the state after it was taken from the port. -/
  | request (i : Instr) (t : State)

/-- The request at the head of the requester's queue, decoded and taken. -/
def fetch (s : State) : Fetched :=
  match s.requests with
  | [] => .nothing
  | img :: rest =>
    match decode img with
    | .ok i => .request i { s with requests := rest }
    | .error e => .bad e

/-- A request image placed where fetch takes the next request: at the head of the queue, with the block idle and
its reset input released, so that the very next step performs it. -/
def placeImage (img : List Byte) (s : State) : State :=
  { s with requests := img :: s.requests, busy := false, resetIn := false }

/-- The step while the reset input is asserted: block reset overrides everything (R193, R210). -/
def resetStep (s : State) : State := blockReset s

end Sys2Proof.Machine
end

