-- ==== Sys2Proof/Machine/Sequencer.lean ====
section
/-! DEFINITION. The sequencers, one clock edge or one phase at a time (10_state.md R14, 40_bit_transport.md R101 to
R108, 42_register_access.md R140, 43_backplane_window.md R172): what the block does between the acceptance of a
request and its completion, and where a block reset can strike (log 8). A request run to completion by these ticks
leaves the state its big-step meaning gives. -/
namespace Sys2Proof.Machine

/-- The access behind a request: the one access of a register request, BW_ACCESS of a windowed one; none for
XFER, PWRON, PWROFF and SETWIN (R91). -/
def accessOf (cfg : Params) : Instr → Option Access
  | .xfer _ _ _ => none
  | .pwron => none
  | .pwroff => none
  | .rdn fn inc addr n => some (readAcc fn inc addr n)
  | .wrn fn inc addr n b => some (writeAcc fn inc addr n b)
  | .rd8 fn addr => some (readAcc fn incDefault addr 1#32)
  | .rd16 fn addr => some (readAcc fn incDefault addr 2#32)
  | .rd32 fn addr => some (readAcc fn incDefault addr 4#32)
  | .wr8 fn addr v => some (writeAcc fn incDefault addr 1#32 (toLE8 v))
  | .wr16 fn addr v => some (writeAcc fn incDefault addr 2#32 (toLE16 v))
  | .wr32 fn addr v => some (writeAcc fn incDefault addr 4#32 (toLE32 v))
  | .rd32s fn addr => some (readAccS fn addr)
  | .wr32s fn addr v => some (writeAccS fn addr v)
  | .setwin _ => none
  | .bprdn a n => some (bpReadAcc cfg a n)
  | .bpwrn a n b => some (bpWriteAcc cfg a n b)
  | .bprd8 a => some (bpReadAcc cfg a 1#32)
  | .bprd16 a => some (bpReadAcc cfg a 2#32)
  | .bprd32 a => some (bpReadAcc cfg a 4#32)
  | .bpwr8 a v => some (bpWriteAcc cfg a 1#32 (toLE8 v))
  | .bpwr16 a v => some (bpWriteAcc cfg a 2#32 (toLE16 v))
  | .bpwr32 a v => some (bpWriteAcc cfg a 4#32 (toLE32 v))

/-- The envelope of a request under the parameters (R203): the refusal it leads to, or none inside. -/
def checkOf (cfg : Params) : Instr → Option Refusal
  | .xfer tx wl rl => checkXfer cfg tx wl rl
  | .pwron => none
  | .pwroff => none
  | .rdn fn _ _ n => checkReg fn n
  | .wrn fn _ _ n b => checkData n b (checkReg fn n)
  | .rd8 fn _ => checkReg fn 1#32
  | .rd16 fn _ => checkReg fn 2#32
  | .rd32 fn _ => checkReg fn 4#32
  | .wr8 fn _ _ => checkReg fn 1#32
  | .wr16 fn _ _ => checkReg fn 2#32
  | .wr32 fn _ _ => checkReg fn 4#32
  | .rd32s fn _ => checkReg fn 4#32
  | .wr32s fn _ _ => checkReg fn 4#32
  | .setwin _ => none
  | .bprdn a n => checkWin a n
  | .bpwrn a n b => checkData n b (checkWin a n)
  | .bprd8 a => checkWin a 1#32
  | .bprd16 a => checkWin a 2#32
  | .bprd32 a => checkWin a 4#32
  | .bpwr8 a _ => checkWin a 1#32
  | .bpwr16 a _ => checkWin a 2#32
  | .bpwr32 a _ => checkWin a 4#32

/-- The backplane address of a request of the window family (R171, R173, R174). -/
def windowOf : Instr → Option Word
  | .setwin a => some a
  | .bprdn a _ => some a
  | .bpwrn a _ _ => some a
  | .bprd8 a => some a
  | .bprd16 a => some a
  | .bprd32 a => some a
  | .bpwr8 a _ => some a
  | .bpwr16 a _ => some a
  | .bpwr32 a _ => some a
  | .xfer _ _ _ => none
  | .pwron => none
  | .pwroff => none
  | .rdn _ _ _ _ => none
  | .wrn _ _ _ _ _ => none
  | .rd8 _ _ => none
  | .rd16 _ _ => none
  | .rd32 _ _ => none
  | .wr8 _ _ _ => none
  | .wr16 _ _ _ => none
  | .wr32 _ _ _ => none
  | .rd32s _ _ => none
  | .wr32s _ _ _ => none

/-- What RA_STRIP decodes from the bytes after the pad (R140): bytes for RDN and BPRDN, fromLE for a width helper,
nothing for a write. -/
def resultOf (d : List Byte) : Instr → Result
  | .rdn _ _ _ _ => .bytes d
  | .bprdn _ _ => .bytes d
  | .rd8 _ _ => .u8 (fromLE8 d)
  | .rd16 _ _ => .u16 (fromLE16 d)
  | .rd32 _ _ => .u32 (fromLE32 d)
  | .rd32s _ _ => .u32 (fromLE32 d)
  | .bprd8 _ => .u8 (fromLE8 d)
  | .bprd16 _ => .u16 (fromLE16 d)
  | .bprd32 _ => .u32 (fromLE32 d)
  | .xfer _ _ _ => .none
  | .pwron => .none
  | .pwroff => .none
  | .wrn _ _ _ _ _ => .none
  | .wr8 _ _ _ => .none
  | .wr16 _ _ _ => .none
  | .wr32 _ _ _ => .none
  | .wr32s _ _ _ => .none
  | .setwin _ => .none
  | .bpwrn _ _ _ => .none
  | .bpwr8 _ _ => .none
  | .bpwr16 _ _ => .none
  | .bpwr32 _ _ => .none

/-- A transfer is requested of the bit sequencer: the buffers and rl are loaded and PHASE goes to SELECT (R101). No byte
is being shifted in SELECT, and BYTECNT and BITCNT stay where they are, at 0, 0 (DESIGN CHOICE, log 27). -/
def startXfer (tx : List Byte) (rl : Nat) (s : State) : State :=
  { s with txbuf := tx, rxbuf := [], rxLen := rl, phase := .select }

/-- Acceptance of a request: BUSY rises (R15), the requester's operands are latched, and the outermost sequencer
the request needs leaves IDLE. -/
def accept (i : Instr) (s : State) : State :=
  let t : State := { setBusy s with req := some i, acc := none, result := .none }
  match i with
  | .xfer tx wl rl => startXfer (tx.take wl.toNat) rl.toNat t
  | .pwron => { t with phase := .pwLow }
  | .pwroff => { t with phase := .pwLow }
  | _ =>
    match windowOf i with
    | some _ => { t with bwPhase := .bwHigh }
    | none => { t with raPhase := .raEncode, acc := accessOf s.cfg i }

/-- SELECT, and the entry to SHIFT_OUT: select is asserted, the data line becomes an output (R103, R104). BYTECNT and
BITCNT are set to the first bit of the first byte, 0, 7, also when wl = 0 (DESIGN CHOICE, log 27). -/
def tickSelect (s : State) : State :=
  { s with
    sel := selActive, ddir := .out, phase := .shiftOut, byteCnt := 0, bitCnt := 7#3
    pins := s.pins ++ [.sel selActive, .ddir .out] }

/-- BYTECNT after a bit cell: the next byte once BITCNT has counted down to 0 (R14), one past the last byte after the
last cell (DESIGN CHOICE, log 27). -/
def nextByteCnt (s : State) : Nat := if s.bitCnt = 0#3 then s.byteCnt + 1 else s.byteCnt

/-- The first half of an output bit cell: SHREG is loaded at the start of a byte (R13), its bit 7 is driven while
the clock is low, and the clock rises (R104). -/
def outRise (s : State) : State :=
  let v := if s.bitCnt = 7#3 then s.txbuf.getD s.byteCnt 0#8 else s.shreg
  { s with
    shreg := v, dout := v.getLsbD 7, clk := true
    pins := s.pins ++ [.dout (v.getLsbD 7), .clk true] }

/-- The second half: the clock falls and SHREG presents the next bit (R104). -/
def outFall (s : State) : State :=
  { s with
    shreg := s.shreg <<< 1, clk := false, byteCnt := nextByteCnt s, bitCnt := s.bitCnt - 1#3
    pins := s.pins ++ [.clk false] }

/-- SHIFT_OUT (R101): wl * 8 cells, one clock edge a tick; left at once when all bytes are out. R14 says what BYTECNT and
BITCNT are while a byte is being shifted; that they stand at wl, 7 for the one tick after the last cell and at 0, 0 in
TURN is the model's (DESIGN CHOICE, log 27). -/
def tickShiftOut (s : State) : State :=
  if s.byteCnt < s.txbuf.length then
    if s.clk then outFall s else outRise s
  else { s with phase := .turn, byteCnt := 0, bitCnt := 0#3 }

/-- TURN (R105): the data line becomes an input, in every transfer. BYTECNT and BITCNT are set to the first bit of the
first byte to receive, 0, 7, also when rl = 0 (DESIGN CHOICE, log 27). -/
def tickTurn (s : State) : State :=
  { s with ddir := .in, phase := .shiftIn, byteCnt := 0, bitCnt := 7#3, pins := s.pins ++ [.ddir .in] }

/-- The first half of an input bit cell: the clock rises; at the start of a byte its value starts at 0 (R106). -/
def inRise (s : State) : State :=
  { s with
    shreg := if s.bitCnt = 7#3 then 0#8 else s.shreg
    clk := true, pins := s.pins ++ [.clk true] }

/-- The second half: the bit is sampled while the clock is high, then the clock falls; after the eighth cell the
byte goes to RXBUF (R106). -/
def inFall (s : State) : State :=
  let b := drawAt s.chipBits s.drawCount
  let v := shiftInBit s.shreg b
  { s with
    shreg := v, clk := false, drawCount := s.drawCount + 1
    byteCnt := nextByteCnt s, bitCnt := s.bitCnt - 1#3
    rxbuf := if s.bitCnt = 0#3 then s.rxbuf ++ [v] else s.rxbuf
    pins := s.pins ++ [.din b, .clk false] }

/-- SHIFT_IN (R101): rl * 8 cells, one clock edge a tick; left at once when all bytes are in. That BYTECNT and BITCNT
stand at rl, 7 for the one tick after the last cell and at 0, 0 in RELEASE is the model's (DESIGN CHOICE, log 27). -/
def tickShiftIn (s : State) : State :=
  if s.byteCnt < s.rxLen then
    if s.clk then inFall s else inRise s
  else { s with phase := .release, byteCnt := 0, bitCnt := 0#3 }

/-- RELEASE (R101, R106): select is released, the frame is complete; a register access goes on to RA_STRIP, a raw
XFER has its result. That State.result shows it from here on, one tick before BUSY falls, is the model's (DESIGN
CHOICE, log 22). -/
def tickRelease (s : State) : State :=
  let t : State := { s with
    sel := !selActive, phase := .idle, byteCnt := 0, bitCnt := 0#3
    frames := s.frames ++ [.frame s.txbuf s.rxbuf]
    pins := s.pins ++ [.sel (!selActive)] }
  if s.raPhase = .raXfer then { t with raPhase := .raStrip } else { t with result := .bytes s.rxbuf }

/-- PW_LOW (R108, R109): the power line is dropped; PWRON waits and goes on, PWROFF is done (log 15). -/
def tickPwLow (s : State) : State :=
  if s.req = some .pwron then { waitAtLeast tPwrLowMin (setPower false s) with phase := .pwSettle }
  else { setPower false s with phase := .idle }

/-- PW_SETTLE (R108): the power line is raised, then the second wait. -/
def tickPwSettle (s : State) : State :=
  { waitAtLeast tPwrSettleMin (setPower true s) with phase := .idle }

/-- RA_ENCODE (R140): CMD and TXBUF are built and the transfer is started. -/
def tickEncode (s : State) : State :=
  match s.acc with
  | some a => startXfer (accTx a) (accRl a) { s with cmd := accCmd a, raPhase := .raXfer }
  | none => { s with raPhase := .idle }

/-- The result a request of this access has (R140). -/
def stripResult (s : State) : Result :=
  match s.req, s.acc with
  | some i, some a => resultOf (accStrip a s.rxbuf) i
  | _, _ => .none

/-- The backplane address of the request in progress. -/
def windowTarget (s : State) : Word := (s.req.bind windowOf).getD 0#32

/-- The phase behind BW_LOW (R172): BW_ACCESS for a windowed access, IDLE for SETWIN on its own. -/
def afterLow (s : State) : Phase :=
  match s.req.bind (accessOf s.cfg) with
  | some _ => .bwAccess
  | none => .idle

/-- RA_STRIP (R140). Behind a window-register write the cache byte is updated and the next byte compared (R183);
otherwise the result is decoded. That State.result shows it from here on, one tick
before BUSY falls, is the model's (DESIGN CHOICE, log 22). -/
def tickStrip (s : State) : State :=
  let a := windowTarget s
  match s.bwPhase with
  | .bwHigh => { cacheHigh (highByte a) s with raPhase := .idle, bwPhase := .bwMed }
  | .bwMed => { cacheMed (medByte a) s with raPhase := .idle, bwPhase := .bwLow }
  | .bwLow => { cacheLow (lowByte a) s with raPhase := .idle, bwPhase := afterLow s }
  | _ => { s with raPhase := .idle, bwPhase := .idle, result := stripResult s }

/-- One comparison of the window sequencer (R172): run the register write if the byte differs, else move on. -/
def tickCompare (diff : Bool) (reg : BitVec 17) (v : Byte) (next : Phase) (s : State) : State :=
  if diff then { s with acc := some (winRegAcc reg v), raPhase := .raEncode } else { s with bwPhase := next }

/-- BW_ACCESS (R172): the one RDN or WRN of a windowed access. No request without one comes here; a state that holds
BW_ACCESS without one goes to IDLE (log 25). -/
def tickAccess (s : State) : State :=
  match s.req.bind (accessOf s.cfg) with
  | some a => { s with acc := some a, raPhase := .raEncode }
  | none => { s with bwPhase := .idle }

/-- The window sequencer while no register access runs (R172); with all sequencers idle the request completes and
BUSY falls (R15). -/
def tickWindow (s : State) : State :=
  let a := windowTarget s
  match s.bwPhase with
  | .bwHigh => tickCompare (differs s 2 s.winHigh (highByte a)) s.cfg.winRegHigh (highByte a) .bwMed s
  | .bwMed => tickCompare (differs s 1 s.winMed (medByte a)) s.cfg.winRegMed (medByte a) .bwLow s
  | .bwLow => tickCompare (differs s 0 s.winLow (lowByte a)) s.cfg.winRegLow (lowByte a) (afterLow s) s
  | .bwAccess => tickAccess s
  | _ => complete s.result s

/-- The register-access sequencer while no transfer runs (R140). -/
def tickRegister (s : State) : State :=
  match s.raPhase with
  | .raEncode => tickEncode s
  | .raStrip => tickStrip s
  | _ => tickWindow s

/-- One tick of a busy block: the innermost sequencer that is not idle moves (R5, R14, log 25). -/
def tick (s : State) : State :=
  match s.phase with
  | .select => tickSelect s
  | .shiftOut => tickShiftOut s
  | .turn => tickTurn s
  | .shiftIn => tickShiftIn s
  | .release => tickRelease s
  | .pwLow => tickPwLow s
  | .pwSettle => tickPwSettle s
  | _ => tickRegister s

end Sys2Proof.Machine
end

