-- ==== Sys2Proof/Machine/Step.lean ====
section
/-! DEFINITION. One step of the machine, and how a table word is placed at the request port. -/
namespace Sys2Proof.Machine

/-- One step. Block reset overrides a request in progress (R193, R210). While BUSY is 1 the sequencers move and a
waiting request is not accepted (R193). An idle block takes the next request and performs it to completion (R58),
or does nothing when there is none (R212). -/
def step (s : State) : Host.Outcome State Fault Refusal :=
  if s.resetIn then .next (resetStep s)
  else if s.busy then .next (tick s)
  else
    match fetch s with
    | .nothing => .next s
    | .bad e => .refused (.badRequest e)
    | .request i t => exec i t

/-- The state with a table word placed as the next request (R93, log 17). -/
def State.withFetchWord (s : State) (nbits w : Nat) : State :=
  if nbits = 32 then placeImage (tableImage w) s else placeImage [] s

end Sys2Proof.Machine
end

