-- ==== Sys2Proof/Machine/SmallStep.lean ====
section
/-! DEFINITION. The machine at the small grain (92_eei_decisions.md D22): as step, but a request is accepted in one
step and its ticks follow, so that a block reset can strike in the middle of it (70_reset_and_hazards.md R210). -/
namespace Sys2Proof.Machine

/-- One small step (log 8). -/
def smallStep (s : State) : Host.Outcome State Fault Refusal :=
  if s.resetIn then .next (resetStep s)
  else if s.busy then .next (tick s)
  else
    match fetch s with
    | .nothing => .next s
    | .bad e => .refused (.badRequest e)
    | .request i t =>
      match checkOf t.cfg i with
      | some r => .refused r
      | none => .next (accept i t)

/-- k ticks of a busy block. -/
def ticks : Nat → State → State
  | 0, s => s
  | k + 1, s => ticks k (tick s)

end Sys2Proof.Machine
end

