-- ==== Sys2Proof/Safety.lean ====
section
/-! DEFINITION. The terms claims are stated in: the invariant of the latches, what one frame and one request leave
unchanged, a monitor that reads the pins, and what the frames say the chip's window registers hold. -/
namespace Sys2Proof.Safety
open Machine

/-! ## The latches -/

/-- Select is asserted exactly in these phases (R101, R103, R106). -/
def selectedPhase : Phase → Bool
  | .shiftOut => true
  | .turn => true
  | .shiftIn => true
  | .release => true
  | _ => false

/-- The block drives the data line exactly in these phases (R104, R105). -/
def drivingPhase : Phase → Bool
  | .shiftOut => true
  | .turn => true
  | _ => false

/-- A phase of the bit or power sequencer, or IDLE (R101, R108). -/
def bitLayer : Phase → Bool
  | .idle => true
  | .select => true
  | .shiftOut => true
  | .turn => true
  | .shiftIn => true
  | .release => true
  | .pwLow => true
  | .pwSettle => true
  | _ => false

/-- The clock is high only inside a bit cell (R103: it is 0 at reset and every bit cell returns it to 0). -/
def ClockInCell (s : State) : Prop :=
  s.clk = true →
    (s.phase = .shiftOut ∧ s.byteCnt < s.txbuf.length) ∨ (s.phase = .shiftIn ∧ s.byteCnt < s.rxLen)

/-- With BUSY 0 the position is IDLE, 0, 0 and nothing is latched (R14, R15). -/
def IdleAtRest (s : State) : Prop :=
  s.busy = false →
    s.phase = .idle ∧ s.raPhase = .idle ∧ s.bwPhase = .idle ∧ s.byteCnt = 0 ∧ s.bitCnt = 0#3 ∧
      s.req = none ∧ s.acc = none ∧ s.rxLen = 0

/-- WIN_LOW holds a legal value (R16, R170). -/
def WinLowLegal (s : State) : Prop := s.winLow = 0x00#8 ∨ s.winLow = 0x80#8

/-- The invariant of the latches: what every state reached by steps or small steps satisfies. -/
structure LatchInv (s : State) : Prop where
  layer : bitLayer s.phase = true
  select : (s.sel = selActive) ↔ selectedPhase s.phase = true
  drive : s.ddir = .out ↔ drivingPhase s.phase = true
  clock : ClockInCell s
  rest : IdleAtRest s
  winLow : WinLowLegal s

/-- The OPEN parameters are as R6, D11 and D12 require: three distinct window registers, and a flag that is a single
bit of the address field above bit 14. -/
def ParamsValid (cfg : Params) : Prop :=
  cfg.winRegHigh ≠ cfg.winRegMed ∧ cfg.winRegHigh ≠ cfg.winRegLow ∧ cfg.winRegMed ≠ cfg.winRegLow ∧
    (cfg.access32Flag = 0x08000#17 ∨ cfg.access32Flag = 0x10000#17)

/-! ## Frames -/

/-- The window cache is as it was (R16, R17). -/
def SameCache (s t : State) : Prop :=
  t.winHigh = s.winHigh ∧ t.winMed = s.winMed ∧ t.winLow = s.winLow ∧ t.winValid = s.winValid

/-- The cache holds the window bytes of A, all valid (R171). -/
def CacheIs (t : State) (a : Word) : Prop :=
  t.winHigh = highByte a ∧ t.winMed = medByte a ∧ t.winLow = lowByte a ∧ t.winValid = 7#3

/-- The power line, the reset input, the requester's queue, the chip's script, the waits and the parameters are as
they were. -/
def SameEnv (s t : State) : Prop :=
  t.pwr = s.pwr ∧ t.resetIn = s.resetIn ∧ t.requests = s.requests ∧ t.chipBits = s.chipBits ∧
    t.delays = s.delays ∧ t.cfg = s.cfg

/-- The four bus latches are as they were: no pin has moved (R19 to R21). -/
def SamePins (s t : State) : Prop :=
  t.sel = s.sel ∧ t.clk = s.clk ∧ t.ddir = s.ddir ∧ t.dout = s.dout

/-- The operand and data latches of a transfer are as they were (R11 to R13). -/
def SameBuffers (s t : State) : Prop :=
  t.cmd = s.cmd ∧ t.txbuf = s.txbuf ∧ t.rxbuf = s.rxbuf ∧ t.shreg = s.shreg

/-- The bus is at rest (R21, R103, R106): select released, clock 0, data line an input. -/
def BusAtRest (t : State) : Prop := t.sel = true ∧ t.clk = false ∧ t.ddir = .in

/-- A request is over: BUSY 0 (R15), position IDLE, 0, 0 and nothing latched (R14). -/
def Over (t : State) : Prop :=
  t.busy = false ∧ t.phase = .idle ∧ t.raPhase = .idle ∧ t.bwPhase = .idle ∧ t.byteCnt = 0 ∧ t.bitCnt = 0#3 ∧
    t.req = none ∧ t.acc = none ∧ t.rxLen = 0

/-- The pin events of a frame-grain event (R9). -/
def framePins : FrameEvent → List PinEvent
  | .frame tx rx => xferPins tx rx
  | .power l => [.power l]

/-- From s to t exactly these frame-grain events went over the wires, at both grains (R9). -/
def Emitted (s t : State) (fs : List FrameEvent) : Prop :=
  t.frames = s.frames ++ fs ∧ t.pins = s.pins ++ fs.flatMap framePins

/-- From s to t the chip supplied exactly the bytes rx (R30). -/
def Supplied (s t : State) (rx : List Byte) : Prop :=
  rx = drawBytes s.chipBits s.drawCount rx.length ∧ t.drawCount = s.drawCount + 8 * rx.length

/-- A request completed with exactly one frame, tx out and rx in, and the result r; it left the window cache, the
power line and the environment alone, and the bus at rest. -/
def FrameRequest (s t : State) (tx rx : List Byte) (r : Result) : Prop :=
  Emitted s t [.frame tx rx] ∧ Supplied s t rx ∧ t.result = r ∧ SameCache s t ∧ SameEnv s t ∧ BusAtRest t ∧ Over t

/-! ## A monitor on the pins -/

/-- What a monitor on the four lines knows: the select line, the direction and level of the data line, the bits
driven and sampled since select was asserted, and the frames seen. -/
structure Monitor where
  selected : Bool
  driven : Bool
  level : Bool
  sent : List Bool
  received : List Bool
  seen : List FrameEvent
  deriving DecidableEq, Repr

/-- A monitor before it has seen anything. -/
def Monitor.start : Monitor :=
  { selected := false, driven := false, level := false, sent := [], received := [], seen := [] }

/-- The bytes of a bit sequence, eight bits each, most significant first (R40). -/
def bytesOfBits : List Bool → List Byte
  | b7 :: b6 :: b5 :: b4 :: b3 :: b2 :: b1 :: b0 :: rest =>
    byteOfBits [b7, b6, b5, b4, b3, b2, b1, b0] :: bytesOfBits rest
  | _ => []

/-- The monitor sees one event: it takes a driven bit on the rising edge of the clock (R104), a sampled bit when it
is sampled (R106), and closes a frame when select is released (R103, R106). -/
def Monitor.see (m : Monitor) : PinEvent → Monitor
  | .sel false => { m with selected := true, sent := [], received := [] }
  | .sel true =>
    if m.selected then
      { m with selected := false, seen := m.seen ++ [.frame (bytesOfBits m.sent) (bytesOfBits m.received)] }
    else m
  | .ddir .out => { m with driven := true }
  | .ddir .in => { m with driven := false }
  | .dout b => { m with level := b }
  | .clk true => if m.selected && m.driven then { m with sent := m.sent ++ [m.level] } else m
  | .clk false => m
  | .din b => if m.selected then { m with received := m.received ++ [b] } else m
  | .power l => { m with seen := m.seen ++ [.power l] }

/-- The frame-grain events a monitor reads from pin events. -/
def observe (ps : List PinEvent) : List FrameEvent := (ps.foldl Monitor.see Monitor.start).seen

/-- The clock pulses among pin events (R231). -/
def pulses (ps : List PinEvent) : Nat := ps.countP (fun e => e == .clk true)

/-- The bytes out and in of frame events (R231). -/
def bytesMoved : List FrameEvent → Nat
  | [] => 0
  | .frame tx rx :: fs => tx.length + rx.length + bytesMoved fs
  | .power _ :: fs => bytesMoved fs

/-- A frame event without the values the chip supplied: what the block itself decides (R30). -/
def driven : FrameEvent → FrameEvent
  | .frame tx rx => .frame tx (zeros rx.length)
  | .power l => .power l

/-! ## The chip's window registers, as the frames tell (R27, log 19, log 20) -/

/-- Whether the chip has power (R18, R29), and the last byte written to each window register since it was last powered
up, where one was. -/
structure ChipWindow where
  on : Bool
  high : Option Byte
  med : Option Byte
  low : Option Byte
  deriving DecidableEq, Repr

/-- Nothing is known of the chip's window registers but its power (R27, 91 N10). -/
def ChipWindow.unknown (on : Bool) : ChipWindow := { on := on, high := none, med := none, low := none }

/-- The bytes of the frame that writes v to a window register: WR8(WIN_FN, reg, v) (R146, R171). -/
def winRegTx (reg : BitVec 17) (v : Byte) : List Byte :=
  cmdBytes (cmdWord 1#1 incDefault winFn (reg.setWidth 32) 1#32) ++ [v, 0#8, 0#8, 0#8]

/-- The byte a frame writes to this window register, if it is such a frame. -/
def windowByte (reg : BitVec 17) (tx : List Byte) : Option Byte :=
  if tx = winRegTx reg (tx.getD 4 0#8) then some (tx.getD 4 0#8) else none

/-- The frame reaches a chip with power: a window write sets its register. -/
def ChipWindow.write (cfg : Params) (w : ChipWindow) (tx : List Byte) : ChipWindow :=
  { w with
    high := (windowByte cfg.winRegHigh tx).or w.high
    med := (windowByte cfg.winRegMed tx).or w.med
    low := (windowByte cfg.winRegLow tx).or w.low }

/-- One frame-grain event changes what is known: a frame is a write only for a chip with power, and its bytes go
nowhere otherwise (R224, D24); a change of the power line makes all three registers unknown (R27, R220). -/
def ChipWindow.see (cfg : Params) (w : ChipWindow) : FrameEvent → ChipWindow
  | .frame tx _ => if w.on then w.write cfg tx else w
  | .power level => ChipWindow.unknown level

/-- What a wire trace that begins at block reset says of the chip: no power (R25), then what each event changes. -/
def chipWindow (cfg : Params) (fs : List FrameEvent) : ChipWindow :=
  fs.foldl (ChipWindow.see cfg) (ChipWindow.unknown false)

/-- The trace and the power line agree: the chip has power, as the frames tell, exactly while PWR is 1 (R18). -/
def PowerTraced (s : State) : Prop := (chipWindow s.cfg s.frames).on = s.pwr

/-- The cache is right: every valid cache byte is what the chip's register was last given (R27, R61). -/
def Coherent (s : State) : Prop :=
  (s.winValid.getLsbD 2 = true → (chipWindow s.cfg s.frames).high = some s.winHigh) ∧
    (s.winValid.getLsbD 1 = true → (chipWindow s.cfg s.frames).med = some s.winMed) ∧
    (s.winValid.getLsbD 0 = true → (chipWindow s.cfg s.frames).low = some s.winLow)

/-- The chip's window is the window of address A (R55, R170). -/
def WindowIs (w : ChipWindow) (a : Word) : Prop :=
  w.high = some (highByte a) ∧ w.med = some (medByte a) ∧ w.low = some (lowByte a)

/-! ## The caching property (R181) -/

/-- The window byte last emitted, for each register; none before the first. -/
structure LastEmitted where
  high : Option Byte
  med : Option Byte
  low : Option Byte

/-- What the cache says was last emitted: nothing for an invalid byte (R17). -/
def lastEmitted (s : State) : LastEmitted :=
  { high := if s.winValid.getLsbD 2 then some s.winHigh else none
    med := if s.winValid.getLsbD 1 then some s.winMed else none
    low := if s.winValid.getLsbD 0 then some s.winLow else none }

/-- A write is emitted exactly when the byte differs from the one last emitted (R181). -/
def emitByte (reg : BitVec 17) (last : Option Byte) (v : Byte) : List FrameEvent :=
  if last = some v then [] else [.frame (winRegTx reg v) []]

/-- The frames R181 asks for: for a sequence of addresses, one write per byte that differs from the immediately
preceding emitted value. -/
def windowWrites (cfg : Params) : LastEmitted → List Word → List FrameEvent
  | _, [] => []
  | e, a :: rest =>
    emitByte cfg.winRegHigh e.high (highByte a) ++ emitByte cfg.winRegMed e.med (medByte a) ++
      emitByte cfg.winRegLow e.low (lowByte a) ++
      windowWrites cfg { high := some (highByte a), med := some (medByte a), low := some (lowByte a) } rest

/-- A windowed access completed: the window writes A needs, then exactly one frame, tx out and rx in, with the
result r; the cache holds the window of A, the power line and the environment are as they were (R173, R174). -/
def WindowedRequest (s t : State) (a : Word) (tx rx : List Byte) (r : Result) : Prop :=
  Emitted s t (windowWrites s.cfg (lastEmitted s) [a] ++ [.frame tx rx]) ∧ Supplied s t rx ∧ t.result = r ∧
    CacheIs t a ∧ SameEnv s t ∧ BusAtRest t ∧ Over t

/-- The requester issues SETWIN for each address in turn (R58). -/
def setWindows : List Word → State → Host.Outcome State Fault Refusal
  | [], s => .next s
  | a :: rest, s =>
    match exec (.setwin a) s with
    | .next t => setWindows rest t
    | .fault r => .fault r
    | .refused r => .refused r

end Sys2Proof.Safety
end

