-- ==== Sys2Proof/WellFormed.lean ====
section
/-! DEFINITION. A request is well formed when it is inside the defined envelope (60_exceptions.md R203), as far as
the request alone says so; the bound rl <= XFER_MAX of R102 depends on the parameters and is checked where the
request is performed. -/
namespace Sys2Proof
open Machine

/-- The envelope of a register access (R153). -/
def regInEnvelope (fn : BitVec 2) (n : Word) : Bool := fnOk fn && lenPos n && lenFits n

/-- The envelope of a windowed access (R182). -/
def winInEnvelope (a n : Word) : Bool := lenPos n && lenFits n && windowOk a n

/-- The request is inside the defined envelope (R203). -/
def Instr.wellFormed : Instr → Bool
  | .xfer tx wl _ => sendOk tx wl
  | .pwron => true
  | .pwroff => true
  | .rdn fn _ _ n => regInEnvelope fn n
  | .wrn fn _ _ n b => regInEnvelope fn n && dataOk n b
  | .rd8 fn _ => fnOk fn
  | .rd16 fn _ => fnOk fn
  | .rd32 fn _ => fnOk fn
  | .wr8 fn _ _ => fnOk fn
  | .wr16 fn _ _ => fnOk fn
  | .wr32 fn _ _ => fnOk fn
  | .rd32s fn _ => fnOk fn
  | .wr32s fn _ _ => fnOk fn
  | .setwin _ => true
  | .bprdn a n => winInEnvelope a n
  | .bpwrn a n b => winInEnvelope a n && dataOk n b
  | .bprd8 a => windowOk a 1#32
  | .bprd16 a => windowOk a 2#32
  | .bprd32 a => windowOk a 4#32
  | .bpwr8 a _ => windowOk a 1#32
  | .bpwr16 a _ => windowOk a 2#32
  | .bpwr32 a _ => windowOk a 4#32

end Sys2Proof
end

