-- ==== Sys2Proof/Certificates/Slice0/Obligations.lean ====
section
/-! DEFINITION. The statements for the provers, each with the rule of the spec it formalises. -/
open Sys2Proof Sys2Proof.Machine Sys2Proof.Safety

/-! ## The command word and the codecs (R120 to R124, R126, R170) -/

/-- R120: the fields of CMDWORD stand at bits 31, 30, 29:28, 27:11 and 9:0, the address is masked to 17 bits and the
length to 10, the terms are disjoint (so or is sum), bit 10 is 0; with the rule's corner cases and example.
The bit positions are the spec's decision D1 (log 21). -/
def Obligations.CommandWordPacksTheFields : Prop :=
  (∀ (w i : BitVec 1) (f : BitVec 2) (a n : Word),
    (cmdWord w i f a n).toNat =
      w.toNat * 2 ^ 31 + i.toNat * 2 ^ 30 + f.toNat * 2 ^ 28 + (a.toNat % 2 ^ 17) * 2 ^ 11 + n.toNat % 2 ^ 10) ∧
  (∀ (w i : BitVec 1) (f : BitVec 2) (a n : Word), (cmdWord w i f a n).getLsbD 10 = false) ∧
  (∀ (w i : BitVec 1) (f : BitVec 2) (a n : Word),
    cmdWord w i f a n = cmdWord w i f (a &&& 0x1FFFF#32) (n &&& 0x3FF#32)) ∧
  (∀ (w i : BitVec 1) (f : BitVec 2) (a : Word), (cmdWord w i f a 0#32).extractLsb' 0 10 = 0#10) ∧
  cmdWord 0#1 0#1 0#2 0#32 0#32 = 0x00000000#32 ∧
  cmdWord 1#1 1#1 3#2 0xFFFFFFFF#32 0xFFFFFFFF#32 = 0xFFFFFBFF#32 ∧
  cmdWord 0#1 1#1 0#2 0x14#32 4#32 = 0x4000A004#32

/-- R126: the definition of CMDDECODE, the round trip in both directions, and the example.
The bit positions are the spec's decision D1 (log 21). -/
def Obligations.CommandWordRoundTrip : Prop :=
  (∀ c : Word, cmdDecode c =
    { write := c.extractLsb' 31 1, inc := c.extractLsb' 30 1, fn := c.extractLsb' 28 2,
      addr := c.extractLsb' 11 17, len := c.extractLsb' 0 10 }) ∧
  (∀ (w i : BitVec 1) (f : BitVec 2) (a n : Word),
    cmdDecode (cmdWord w i f a n) =
      { write := w, inc := i, fn := f, addr := (a &&& 0x1FFFF#32).setWidth 17, len := (n &&& 0x3FF#32).setWidth 10 }) ∧
  (∀ c : Word,
    cmdWord (cmdDecode c).write (cmdDecode c).inc (cmdDecode c).fn ((cmdDecode c).addr.setWidth 32)
      ((cmdDecode c).len.setWidth 32) = c &&& 0xFFFFFBFF#32) ∧
  (∀ c : Word, c &&& 0xFFFFFBFF#32 = c ↔ c.getLsbD 10 = false) ∧
  cmdDecode 0xC8005001#32 = { write := 1#1, inc := 1#1, fn := 0#2, addr := 0x1000A#17, len := 1#10 }

/-- R121: the command word goes out least significant byte first; it is toLE_32. -/
def Obligations.CommandBytesAreLittleEndian : Prop :=
  (∀ c : Word, cmdBytes c = [c.extractLsb' 0 8, c.extractLsb' 8 8, c.extractLsb' 16 8, c.extractLsb' 24 8]) ∧
  (∀ c : Word, cmdBytes c = toLE32 c) ∧
  cmdBytes 0x4000A004#32 = [0x04#8, 0xA0#8, 0x00#8, 0x40#8]

/-- R122: output byte i is input byte i XOR 1, SWAP16 is its own inverse, the empty sequence maps to itself.
The extension beyond four bytes is the spec's own, as R122 says. -/
def Obligations.SwapExchangesBytePairs : Prop :=
  (∀ a b c d : Byte, swap16 [a, b, c, d] = [b, a, d, c]) ∧
  (∀ b : List Byte, 4 ∣ b.length → (swap16 b).length = b.length ∧ ∀ i, i < b.length → (swap16 b)[i]? = b[i ^^^ 1]?) ∧
  (∀ b : List Byte, 4 ∣ b.length → swap16 (swap16 b) = b) ∧
  swap16 [] = [] ∧
  swap16 [0x04#8, 0xA0#8, 0x00#8, 0x40#8] = [0xA0#8, 0x04#8, 0x40#8, 0x00#8]

/-- R123: byte i of toLE_N(v) is (v >> 8i) & 0xFF, fromLE_N is the weighted sum of the first N/8 bytes and ignores
the rest, and fromLE_N inverts toLE_N, for N = 8, 16, 32. -/
def Obligations.LittleEndianCodecs : Prop :=
  (∀ v : Byte, toLE8 v = [v] ∧ fromLE8 (toLE8 v) = v) ∧
  (∀ v : BitVec 16, (toLE16 v).length = 2 ∧
    (∀ i, i < 2 → (toLE16 v)[i]? = some ((v >>> (8 * i) &&& 0xFF#16).setWidth 8)) ∧ fromLE16 (toLE16 v) = v) ∧
  (∀ v : Word, (toLE32 v).length = 4 ∧
    (∀ i, i < 4 → (toLE32 v)[i]? = some ((v >>> (8 * i) &&& 0xFF#32).setWidth 8)) ∧ fromLE32 (toLE32 v) = v) ∧
  (∀ (a : Byte) (rest : List Byte), (fromLE8 (a :: rest)).toNat = a.toNat) ∧
  (∀ (a b : Byte) (rest : List Byte), (fromLE16 (a :: b :: rest)).toNat = a.toNat + b.toNat * 2 ^ 8) ∧
  (∀ (a b c d : Byte) (rest : List Byte),
    (fromLE32 (a :: b :: c :: d :: rest)).toNat =
      a.toNat + b.toNat * 2 ^ 8 + c.toNat * 2 ^ 16 + d.toNat * 2 ^ 24) ∧
  toLE32 0x000304B3#32 = [0xB3#8, 0x04#8, 0x03#8, 0x00#8] ∧
  fromLE16 [0xEF#8, 0xBE#8, 0x00#8, 0x00#8] = 0xBEEF#16

/-- R124: roundUp4(n) is the least multiple of 4 not less than n, (n + 3) & ~3; with the corner cases. -/
def Obligations.RoundUpToFour : Prop :=
  (∀ n, 4 ∣ roundUp4 n ∧ n ≤ roundUp4 n ∧ ∀ m, 4 ∣ m → n ≤ m → roundUp4 n ≤ m) ∧
  (∀ n, roundUp4 n = (n + 3) / 4 * 4 ∧ roundUp4 n + (n + 3) % 4 = n + 3) ∧
  (∀ n, 4 ∣ n → roundUp4 n = n) ∧
  roundUp4 0 = 0 ∧ roundUp4 1 = 4 ∧ roundUp4 4 = 4 ∧ roundUp4 5 = 8 ∧ roundUp4 1023 = 1024 ∧ roundUp4 6 = 8

/-- R170: the window bytes and the offset of an address; two addresses are in one window exactly when their bits
31:15 agree; window bytes and offset together are the address.
The byte that stands for A[15] is the spec's decision D8 (log 21). -/
def Obligations.WindowBytesOfAnAddress : Prop :=
  (∀ a : Word, highByte a = a.extractLsb' 24 8 ∧ medByte a = a.extractLsb' 16 8 ∧
    lowByte a = (if a.getLsbD 15 then 0x80#8 else 0x00#8) ∧ (winOffset a).toNat = a.toNat % 2 ^ 15) ∧
  (∀ a b : Word, (highByte a = highByte b ∧ medByte a = medByte b ∧ lowByte a = lowByte b) ↔
    a.extractLsb' 15 17 = b.extractLsb' 15 17) ∧
  (∀ a : Word, a.toNat =
    (highByte a).toNat * 2 ^ 24 + (medByte a).toNat * 2 ^ 16 + (lowByte a).toNat * 2 ^ 8 + (winOffset a).toNat)

/-! ## Request images -/

/-- Decoding the image of any request gives the request back (the image is the model's own encoding, log 2, around
the command words of R90). -/
def Obligations.DecodeInvertsEncode : Prop :=
  ∀ i : Instr, decode (encode i) = .ok i

/-- Every image the decoder accepts with a selector is the encoder's image of what it decodes to: no bit of it is
dropped (log 2). -/
def Obligations.AcceptedImagesAreCanonical : Prop :=
  ∀ (img : List Byte) (i : Instr), img.getD 4 0#8 ≠ 0#8 → decode img = .ok i → encode i = img

/-- Words of the operation table, written out from R90's patterns, decode to their requests (log 3). -/
def Obligations.TableWordsDecode : Prop :=
  decodeTableWord 32 0x0000A004 = some (.rdn 0#2 0#1 0x14#32 4#32) ∧
  decodeTableWord 32 0x4000A004 = some (.rd32 0#2 0x14#32) ∧
  decodeTableWord 32 0xC8006001 = some (.wr8 0#2 0x1000C#32 0#8) ∧
  decodeTableWord 32 0x55A04002 = some (.bprd16 0x3408#32) ∧
  decodeTableWord 32 0xD4008005 = some (.bpwrn 0x10#32 5#32 [0#8, 0#8, 0#8, 0#8, 0#8]) ∧
  decodeTableWord 32 0x00000400 = none

/-! ## The step -/

/-- An idle block whose next image decodes to i steps as exec i, the image taken from the port; with no image it
does nothing (R212); an image that is no request is refused (log 2). -/
def Obligations.StepRunsTheDecodedRequest : Prop :=
  (∀ (s : State) (img : List Byte) (rest : List (List Byte)) (i : Instr),
    s.resetIn = false → s.busy = false → s.requests = img :: rest → decode img = .ok i →
      step s = exec i { s with requests := rest }) ∧
  (∀ (s : State) (img : List Byte) (rest : List (List Byte)) (e : DecodeError),
    s.resetIn = false → s.busy = false → s.requests = img :: rest → decode img = .error e →
      step s = .refused (.badRequest e)) ∧
  (∀ s : State, s.resetIn = false → s.busy = false → s.requests = [] → step s = .next s)

/-- R193: a request presented while BUSY = 1 is not accepted; it waits. The sequencers move, the queue stays, and the
request itself has no step. -/
def Obligations.BusyBlockLetsRequestsWait : Prop :=
  ∀ s : State, s.busy = true → s.resetIn = false →
    (∃ t, step s = .next t ∧ t = tick s ∧ t.requests = s.requests) ∧ ∀ i, exec i s = .refused .busy

/-- R210: block reset, at any moment. Every state element takes its value of R25, a request in progress is abandoned
without result, a frame in progress is cut short by the release of select and makes no frame event, Power(0) is
emitted if PWR was 1.
The order of its pin events and what is kept are the model's (log 9, log 10). -/
def Obligations.BlockResetOverridesEverything : Prop :=
  ∀ s : State, s.resetIn = true →
    ∃ t, step s = .next t ∧
      t.winValid = 0#3 ∧ t.pwr = false ∧ t.dout = false ∧ BusAtRest t ∧ Over t ∧ t.result = .none ∧
      t.frames = s.frames ++ (if s.pwr then [.power false] else []) ∧
      t.pins = s.pins ++ (if s.sel = false then [.sel true] else []) ++ (if s.pwr then [.power false] else []) ∧
      t.requests = s.requests ∧ t.cfg = s.cfg ∧ t.chipBits = s.chipBits ∧ t.drawCount = s.drawCount ∧
      t.resetIn = false

/-- R25: the values the spec gives for reset. -/
def Obligations.ResetLeavesTheBlockQuiet : Prop :=
  State.reset.winValid = 0#3 ∧ State.reset.pwr = false ∧ State.reset.dout = false ∧ BusAtRest State.reset ∧
    Over State.reset ∧ step State.reset = .next State.reset

/-- R62, R17: nothing but block reset invalidates a byte of the window cache: every other step keeps every valid
bit. -/
def Obligations.OnlyResetInvalidatesTheCache : Prop :=
  ∀ s t : State, s.resetIn = false → step s = .next t →
    ∀ k, s.winValid.getLsbD k = true → t.winValid.getLsbD k = true

/-- R18, R202: with no reset, only PWRON and PWROFF change the power line or touch the delay capability. -/
def Obligations.OnlyPowerRequestsMoveThePowerLine : Prop :=
  ∀ (i : Instr) (s t : State), i ≠ .pwron → i ≠ .pwroff → exec i s = .next t →
    t.pwr = s.pwr ∧ t.delays = s.delays ∧ ∃ fs, t.frames = s.frames ++ fs ∧ ∀ l, FrameEvent.power l ∉ fs

/-! ## The requests -/

/-- R100: XFER sends exactly the first wl bytes of tx and hands back the rl bytes it received, with one frame; it
writes no CMD.
What CMD holds after completion is the model's choice: R11 leaves it unspecified between requests (log 6). -/
def Obligations.TransferMovesOneFrame : Prop :=
  ∀ (s : State) (tx : List Byte) (wl rl : Word), s.busy = false → wl.toNat ≤ tx.length → rl.toNat ≤ s.cfg.xferMax →
    ∃ t rx, exec (.xfer tx wl rl) s = .next t ∧ rx.length = rl.toNat ∧
      FrameRequest s t (tx.take wl.toNat) rx (.bytes rx) ∧ t.cmd = s.cmd ∧
      t.dout = (match (tx.take wl.toNat).getLast? with | some b => b.getLsbD 0 | none => s.dout)

/-- R108: PWRON drops the power line whatever it was, waits at least 20 ms, raises it, waits at least 250 ms; no frame
is sent, the window cache and the bus pins are not touched. The order of lines and waits is said tick by tick (log 8):
the first tick drops the line and asks for 20 ms, and only the second raises it and asks for 250 ms.
That the request completes, each wait asked and returned, rests on the spec's decision D18 (log 11, DESIGN CHOICE). -/
def Obligations.PowerOnCyclesThePowerLine : Prop :=
  ∀ s : State, s.busy = false →
    ∃ t, exec .pwron s = .next t ∧ t.pwr = true ∧ Emitted s t [.power false, .power true] ∧
      t.delays = s.delays ++ [20, 250] ∧ t.result = .none ∧ Over t ∧ SameCache s t ∧ SamePins s t ∧
      ∃ u v, tick (accept .pwron s) = u ∧ u.busy = true ∧ u.phase = .pwSettle ∧ u.pwr = false ∧
        Emitted s u [.power false] ∧ u.delays = s.delays ++ [20] ∧
        tick u = v ∧ v.busy = true ∧ v.phase = .idle ∧ v.pwr = true ∧
        Emitted s v [.power false, .power true] ∧ v.delays = s.delays ++ [20, 250]

/-- R109, R110: PWROFF drops the power line; the event is emitted whatever it was; the cache, the bus pins, CMD and the
buffers, the queue, the reset input, the parameters and what the chip supplies are not touched, nothing is waited for,
and a transfer requested afterwards still runs.
R110 is the spec's decision D23, the transfer with the line low its decision D24. -/
def Obligations.PowerOffDropsThePowerLine : Prop :=
  ∀ s : State, s.busy = false →
    ∃ t, exec .pwroff s = .next t ∧ t.pwr = false ∧ Emitted s t [.power false] ∧ t.delays = s.delays ∧
      t.result = .none ∧ Over t ∧ SameCache s t ∧ SamePins s t ∧ SameBuffers s t ∧ t.requests = s.requests ∧
      t.resetIn = s.resetIn ∧ t.cfg = s.cfg ∧ t.chipBits = s.chipBits ∧ t.drawCount = s.drawCount ∧
      ∀ (tx : List Byte) (wl rl : Word), wl.toNat ≤ tx.length → rl.toNat ≤ s.cfg.xferMax →
        ∃ u, exec (.xfer tx wl rl) t = .next u

/-- R110: PWRON and PWROFF write PWR and BUSY and nothing else: not the bus pins, not the window cache, not any
buffer; nor the queue, the reset input, the parameters, or what the chip supplies.
R110 is the spec's decision D23. -/
def Obligations.PowerRequestsTouchNothingElse : Prop :=
  ∀ (i : Instr) (s t : State), i = .pwron ∨ i = .pwroff → exec i s = .next t →
    SamePins s t ∧ SameCache s t ∧ SameBuffers s t ∧ t.requests = s.requests ∧ t.resetIn = s.resetIn ∧
      t.cfg = s.cfg ∧ t.chipBits = s.chipBits ∧ t.drawCount = s.drawCount ∧ t.busy = false

/-- R141, R151, R152, R73: RDN sends the command word of a read, receives the pad (backplane only) and roundUp4(n)
bytes, and hands back the bytes after the pad.
That the result is not cut to n is the spec's decision D6 (log 23).
What CMD holds after completion is the model's choice: R11 leaves it unspecified between requests (log 6). -/
def Obligations.RegisterReadDropsThePad : Prop :=
  ∀ (s : State) (fn : BitVec 2) (inc : BitVec 1) (addr n : Word), s.busy = false → (fn = 0#2 ∨ fn = 1#2) →
    1 ≤ n.toNat → n.toNat ≤ 1023 →
    ∃ t rx, exec (.rdn fn inc addr n) s = .next t ∧
      rx.length = roundUp4 n.toNat + (if fn = 1#2 then 4 else 0) ∧
      t.cmd = cmdWord 0#1 inc fn addr n ∧
      FrameRequest s t (cmdBytes (cmdWord 0#1 inc fn addr n)) rx (.bytes (rx.drop (if fn = 1#2 then 4 else 0)))

/-- R142, R74: WRN sends the command word of a write, the first n value bytes and zero filler to a multiple of 4, and
receives nothing.
What CMD holds after completion is the model's choice: R11 leaves it unspecified between requests (log 6). -/
def Obligations.RegisterWritePadsWithZeros : Prop :=
  ∀ (s : State) (fn : BitVec 2) (inc : BitVec 1) (addr n : Word) (b : List Byte), s.busy = false →
    (fn = 0#2 ∨ fn = 1#2) → 1 ≤ n.toNat → n.toNat ≤ 1023 → n.toNat ≤ b.length →
    ∃ t, exec (.wrn fn inc addr n b) s = .next t ∧ t.cmd = cmdWord 1#1 inc fn addr n ∧
      FrameRequest s t
        (cmdBytes (cmdWord 1#1 inc fn addr n) ++ b.take n.toNat ++ List.replicate (roundUp4 n.toNat - n.toNat) 0#8)
        [] .none

/-- R143 to R145: the read helpers, with inc = 1: the value is decoded little-endian from the bytes after the pad.
inc = 1 is the spec's decision D2 (log 21). -/
def Obligations.ReadHelpersDecodeLittleEndian : Prop :=
  ∀ (s : State) (fn : BitVec 2) (addr : Word), s.busy = false → (fn = 0#2 ∨ fn = 1#2) →
    (∃ t rx, exec (.rd8 fn addr) s = .next t ∧ rx.length = 4 + (if fn = 1#2 then 4 else 0) ∧
      FrameRequest s t (cmdBytes (cmdWord 0#1 1#1 fn addr 1#32)) rx
        (.u8 (rx.getD (if fn = 1#2 then 4 else 0) 0#8))) ∧
    (∃ t rx, exec (.rd16 fn addr) s = .next t ∧ rx.length = 4 + (if fn = 1#2 then 4 else 0) ∧
      FrameRequest s t (cmdBytes (cmdWord 0#1 1#1 fn addr 2#32)) rx
        (.u16 (fromLE16 (rx.drop (if fn = 1#2 then 4 else 0))))) ∧
    (∃ t rx, exec (.rd32 fn addr) s = .next t ∧ rx.length = 4 + (if fn = 1#2 then 4 else 0) ∧
      FrameRequest s t (cmdBytes (cmdWord 0#1 1#1 fn addr 4#32)) rx
        (.u32 (fromLE32 (rx.drop (if fn = 1#2 then 4 else 0)))))

/-- R146 to R148: the write helpers, with inc = 1: command bytes, the value little-endian, zeros to four bytes.
inc = 1 is the spec's decision D2 (log 21). -/
def Obligations.WriteHelpersSendLittleEndian : Prop :=
  ∀ (s : State) (fn : BitVec 2) (addr : Word), s.busy = false → (fn = 0#2 ∨ fn = 1#2) →
    (∀ v : Byte, ∃ t, exec (.wr8 fn addr v) s = .next t ∧
      FrameRequest s t (cmdBytes (cmdWord 1#1 1#1 fn addr 1#32) ++ [v, 0#8, 0#8, 0#8]) [] .none) ∧
    (∀ v : BitVec 16, ∃ t, exec (.wr16 fn addr v) s = .next t ∧
      FrameRequest s t
        (cmdBytes (cmdWord 1#1 1#1 fn addr 2#32) ++ [v.extractLsb' 0 8, v.extractLsb' 8 8, 0#8, 0#8]) [] .none) ∧
    (∀ v : Word, ∃ t, exec (.wr32 fn addr v) s = .next t ∧
      FrameRequest s t
        (cmdBytes (cmdWord 1#1 1#1 fn addr 4#32) ++
          [v.extractLsb' 0 8, v.extractLsb' 8 8, v.extractLsb' 16 8, v.extractLsb' 24 8]) [] .none)

/-- R149, R150, R75: the swapped pair: all outgoing bytes are SWAP16 of the normal frame's; the four data bytes of the
read are swapped back after the pad is dropped.
The swap of a read's data is the spec's decision D7, inc = 1 its decision D2 (log 21).
What CMD holds after completion is the model's choice: R11 leaves it unspecified between requests (log 6). -/
def Obligations.SwappedPairExchangesBytes : Prop :=
  ∀ (s : State) (fn : BitVec 2) (addr : Word), s.busy = false → (fn = 0#2 ∨ fn = 1#2) →
    (∃ t rx, exec (.rd32s fn addr) s = .next t ∧ rx.length = 4 + (if fn = 1#2 then 4 else 0) ∧
      t.cmd = cmdWord 0#1 1#1 fn addr 4#32 ∧
      FrameRequest s t (swap16 (cmdBytes (cmdWord 0#1 1#1 fn addr 4#32))) rx
        (.u32 (fromLE32 (swap16 (rx.drop (if fn = 1#2 then 4 else 0)))))) ∧
    (∀ v : Word, ∃ t, exec (.wr32s fn addr v) s = .next t ∧ t.cmd = cmdWord 1#1 1#1 fn addr 4#32 ∧
      FrameRequest s t (swap16 (cmdBytes (cmdWord 1#1 1#1 fn addr 4#32) ++ toLE32 v)) [] .none)

/-- R171, R74: SETWIN A writes exactly the window bytes that differ from a valid cache, in the order high, med, low,
and leaves the cache at the bytes of A, all valid; with nothing to write no pin moves.
The order is the spec's decision D9. That CMD and the buffers keep their contents where nothing is written is the
model's choice: R11 and R12 leave them unspecified between requests (log 6). -/
def Obligations.SetWindowWritesWhatDiffers : Prop :=
  ∀ (s : State) (a : Word), s.busy = false →
    ∃ t, exec (.setwin a) s = .next t ∧ Emitted s t (windowWrites s.cfg (lastEmitted s) [a]) ∧ Supplied s t [] ∧
      CacheIs t a ∧ t.result = .none ∧ SameEnv s t ∧ Over t ∧
      (windowWrites s.cfg (lastEmitted s) [a] = [] → SamePins s t ∧ SameBuffers s t) ∧
      (windowWrites s.cfg (lastEmitted s) [a] ≠ [] → BusAtRest t)

/-- R173, R175 to R177: the windowed reads: SETWIN A, then one backplane read at offset(A) | ACCESS32_FLAG, whose four
pad bytes are dropped.
inc = 1 is the spec's decision D2 (log 21), the filler in BPRDN's result its decision D6 (log 23). -/
def Obligations.WindowedReadsSetTheWindowFirst : Prop :=
  ∀ (s : State) (a : Word), s.busy = false →
    (∀ n : Word, 1 ≤ n.toNat → n.toNat ≤ 1023 → a.toNat % 0x8000 + n.toNat ≤ 0x8000 →
      ∃ t rx, exec (.bprdn a n) s = .next t ∧ rx.length = roundUp4 n.toNat + 4 ∧
        WindowedRequest s t a
          (cmdBytes (cmdWord 0#1 1#1 1#2 ((a &&& 0x7FFF#32) ||| s.cfg.access32Flag.setWidth 32) n)) rx
          (.bytes (rx.drop 4))) ∧
    (a.toNat % 0x8000 + 1 ≤ 0x8000 →
      ∃ t rx, exec (.bprd8 a) s = .next t ∧ rx.length = 8 ∧
        WindowedRequest s t a
          (cmdBytes (cmdWord 0#1 1#1 1#2 ((a &&& 0x7FFF#32) ||| s.cfg.access32Flag.setWidth 32) 1#32)) rx
          (.u8 (rx.getD 4 0#8))) ∧
    (a.toNat % 0x8000 + 2 ≤ 0x8000 →
      ∃ t rx, exec (.bprd16 a) s = .next t ∧ rx.length = 8 ∧
        WindowedRequest s t a
          (cmdBytes (cmdWord 0#1 1#1 1#2 ((a &&& 0x7FFF#32) ||| s.cfg.access32Flag.setWidth 32) 2#32)) rx
          (.u16 (fromLE16 (rx.drop 4)))) ∧
    (a.toNat % 0x8000 + 4 ≤ 0x8000 →
      ∃ t rx, exec (.bprd32 a) s = .next t ∧ rx.length = 8 ∧
        WindowedRequest s t a
          (cmdBytes (cmdWord 0#1 1#1 1#2 ((a &&& 0x7FFF#32) ||| s.cfg.access32Flag.setWidth 32) 4#32)) rx
          (.u32 (fromLE32 (rx.drop 4))))

/-- R174, R178 to R180: the windowed writes: SETWIN A, then one backplane write at offset(A) | ACCESS32_FLAG, zero
filled to a multiple of 4, with no pad.
inc = 1 is the spec's decision D2 (log 21). -/
def Obligations.WindowedWritesSetTheWindowFirst : Prop :=
  ∀ (s : State) (a : Word), s.busy = false →
    (∀ (n : Word) (b : List Byte), 1 ≤ n.toNat → n.toNat ≤ 1023 → n.toNat ≤ b.length →
      a.toNat % 0x8000 + n.toNat ≤ 0x8000 →
      ∃ t, exec (.bpwrn a n b) s = .next t ∧
        WindowedRequest s t a
          (cmdBytes (cmdWord 1#1 1#1 1#2 ((a &&& 0x7FFF#32) ||| s.cfg.access32Flag.setWidth 32) n) ++
            b.take n.toNat ++ List.replicate (roundUp4 n.toNat - n.toNat) 0#8) [] .none) ∧
    (a.toNat % 0x8000 + 1 ≤ 0x8000 → ∀ v : Byte,
      ∃ t, exec (.bpwr8 a v) s = .next t ∧
        WindowedRequest s t a
          (cmdBytes (cmdWord 1#1 1#1 1#2 ((a &&& 0x7FFF#32) ||| s.cfg.access32Flag.setWidth 32) 1#32) ++
            [v, 0#8, 0#8, 0#8]) [] .none) ∧
    (a.toNat % 0x8000 + 2 ≤ 0x8000 → ∀ v : BitVec 16,
      ∃ t, exec (.bpwr16 a v) s = .next t ∧
        WindowedRequest s t a
          (cmdBytes (cmdWord 1#1 1#1 1#2 ((a &&& 0x7FFF#32) ||| s.cfg.access32Flag.setWidth 32) 2#32) ++
            [v.extractLsb' 0 8, v.extractLsb' 8 8, 0#8, 0#8]) [] .none) ∧
    (a.toNat % 0x8000 + 4 ≤ 0x8000 → ∀ v : Word,
      ∃ t, exec (.bpwr32 a v) s = .next t ∧
        WindowedRequest s t a
          (cmdBytes (cmdWord 1#1 1#1 1#2 ((a &&& 0x7FFF#32) ||| s.cfg.access32Flag.setWidth 32) 4#32) ++
            [v.extractLsb' 0 8, v.extractLsb' 8 8, v.extractLsb' 16 8, v.extractLsb' 24 8]) [] .none)

/-- R91: a windowed access is SETWIN A and then the register access of the backplane function, as two requests in a
row.
inc = 1 stands where R91 has INC_DEFAULT: its value is the spec's decision D2 (log 21, PRESUMED). -/
def Obligations.WindowedAccessIsSetWindowThenAccess : Prop :=
  ∀ (s : State) (a n : Word), s.busy = false → 1 ≤ n.toNat → n.toNat ≤ 1023 → a.toNat % 0x8000 + n.toNat ≤ 0x8000 →
    ∃ u, exec (.setwin a) s = .next u ∧
      exec (.bprdn a n) s = exec (.rdn 1#2 1#1 ((a &&& 0x7FFF#32) ||| s.cfg.access32Flag.setWidth 32) n) u ∧
      ∀ b : List Byte, n.toNat ≤ b.length →
        exec (.bpwrn a n b) s = exec (.wrn 1#2 1#1 ((a &&& 0x7FFF#32) ||| s.cfg.access32Flag.setWidth 32) n b) u

/-- R91: the width helpers are the primitives with the constant lengths 1, 2, 4, decoded or encoded little-endian.
inc = 1 stands where R91 has INC_DEFAULT: its value is the spec's decision D2 (log 21, PRESUMED). Of RDN it says only
that it completes with inc = 1 and these lengths; RegisterReadDropsThePad says it of every inc and length. -/
def Obligations.HelpersExpandToThePrimitives : Prop :=
  ∀ (s : State) (fn : BitVec 2) (addr : Word), s.busy = false → (fn = 0#2 ∨ fn = 1#2) →
    (∃ t d, exec (.rdn fn 1#1 addr 1#32) s = .next t ∧ t.result = .bytes d ∧
      exec (.rd8 fn addr) s = .next { t with result := .u8 (fromLE8 d) }) ∧
    (∃ t d, exec (.rdn fn 1#1 addr 2#32) s = .next t ∧ t.result = .bytes d ∧
      exec (.rd16 fn addr) s = .next { t with result := .u16 (fromLE16 d) }) ∧
    (∃ t d, exec (.rdn fn 1#1 addr 4#32) s = .next t ∧ t.result = .bytes d ∧
      exec (.rd32 fn addr) s = .next { t with result := .u32 (fromLE32 d) }) ∧
    (∀ v : Byte, exec (.wr8 fn addr v) s = exec (.wrn fn 1#1 addr 1#32 (toLE8 v)) s) ∧
    (∀ v : BitVec 16, exec (.wr16 fn addr v) s = exec (.wrn fn 1#1 addr 2#32 (toLE16 v)) s) ∧
    (∀ v : Word, exec (.wr32 fn addr v) s = exec (.wrn fn 1#1 addr 4#32 (toLE32 v)) s)

/-- R52, R77, R225: an address is cut to its low 17 bits without notice: addresses that agree in them alias. -/
def Obligations.RegisterAddressesAlias : Prop :=
  ∀ (s : State) (fn : BitVec 2) (inc : BitVec 1) (addr n : Word) (b : List Byte),
    exec (.rdn fn inc addr n) s = exec (.rdn fn inc (addr &&& 0x1FFFF#32) n) s ∧
      exec (.wrn fn inc addr n b) s = exec (.wrn fn inc (addr &&& 0x1FFFF#32) n b) s

/-- R203: a request completes exactly when it is inside the envelope and the block is free; otherwise it is refused;
it never faults. The bound rl <= XFER_MAX is R102's.
That the other requests are refused is the spec's decision (D13, D14, D19, D20). -/
def Obligations.CompletesExactlyInsideTheEnvelope : Prop :=
  ∀ (i : Instr) (s : State),
    ((∃ t, exec i s = .next t) ↔
      s.busy = false ∧ i.wellFormed = true ∧ ∀ tx wl rl, i = .xfer tx wl rl → rl.toNat ≤ s.cfg.xferMax) ∧
    ((∃ t, exec i s = .next t) ∨ ∃ r, exec i s = .refused r) ∧
    ∀ f, exec i s ≠ .fault f

/-- R203, R82, R83, R102, R153, R182: which refusal each bound of the envelope leads to, for every request that has the
bound, where the bounds checked before it hold (log 14). BPRD8 and BPWR8 have no crossing: one byte always fits. -/
def Obligations.RefusalsNameTheBrokenBound : Prop :=
  ∀ (s : State), s.busy = false →
    (∀ (fn : BitVec 2) (addr : Word), fn ≠ 0#2 → fn ≠ 1#2 →
      (∀ inc n, exec (.rdn fn inc addr n) s = .refused .reservedFunction) ∧
      (∀ inc n b, exec (.wrn fn inc addr n b) s = .refused .reservedFunction) ∧
      exec (.rd8 fn addr) s = .refused .reservedFunction ∧ exec (.rd16 fn addr) s = .refused .reservedFunction ∧
      exec (.rd32 fn addr) s = .refused .reservedFunction ∧ exec (.rd32s fn addr) s = .refused .reservedFunction ∧
      (∀ v, exec (.wr8 fn addr v) s = .refused .reservedFunction) ∧
      (∀ v, exec (.wr16 fn addr v) s = .refused .reservedFunction) ∧
      (∀ v, exec (.wr32 fn addr v) s = .refused .reservedFunction) ∧
      (∀ v, exec (.wr32s fn addr v) s = .refused .reservedFunction)) ∧
    (∀ fn inc addr b, (fn = 0#2 ∨ fn = 1#2) →
      exec (.rdn fn inc addr 0#32) s = .refused .zeroLength ∧
      exec (.wrn fn inc addr 0#32 b) s = .refused .zeroLength) ∧
    (∀ fn inc addr n b, (fn = 0#2 ∨ fn = 1#2) → 1023 < n.toNat →
      exec (.rdn fn inc addr n) s = .refused .lengthTooLong ∧
      exec (.wrn fn inc addr n b) s = .refused .lengthTooLong) ∧
    (∀ fn inc addr n b, (fn = 0#2 ∨ fn = 1#2) → 1 ≤ n.toNat → n.toNat ≤ 1023 → b.length < n.toNat →
      exec (.wrn fn inc addr n b) s = .refused .dataTooShort) ∧
    (∀ a b, exec (.bprdn a 0#32) s = .refused .zeroLength ∧ exec (.bpwrn a 0#32 b) s = .refused .zeroLength) ∧
    (∀ a n b, 1023 < n.toNat →
      exec (.bprdn a n) s = .refused .lengthTooLong ∧ exec (.bpwrn a n b) s = .refused .lengthTooLong) ∧
    (∀ a n b, 1 ≤ n.toNat → n.toNat ≤ 1023 → 0x8000 < a.toNat % 0x8000 + n.toNat →
      exec (.bprdn a n) s = .refused .windowCrossing ∧ exec (.bpwrn a n b) s = .refused .windowCrossing) ∧
    (∀ a n b, 1 ≤ n.toNat → n.toNat ≤ 1023 → a.toNat % 0x8000 + n.toNat ≤ 0x8000 → b.length < n.toNat →
      exec (.bpwrn a n b) s = .refused .dataTooShort) ∧
    (∀ a, 0x8000 < a.toNat % 0x8000 + 2 →
      exec (.bprd16 a) s = .refused .windowCrossing ∧ ∀ v, exec (.bpwr16 a v) s = .refused .windowCrossing) ∧
    (∀ a, 0x8000 < a.toNat % 0x8000 + 4 →
      exec (.bprd32 a) s = .refused .windowCrossing ∧ ∀ v, exec (.bpwr32 a v) s = .refused .windowCrossing) ∧
    (∀ tx wl rl, tx.length < wl.toNat → exec (.xfer tx wl rl) s = .refused .sendTooLong) ∧
    (∀ tx wl rl, wl.toNat ≤ tx.length → s.cfg.xferMax < rl.toNat →
      exec (.xfer tx wl rl) s = .refused .receiveTooLong)

/-! ## Whole-machine rules -/

/-- R14, R15, R16, R21, R103 to R106: every step keeps the invariant of the latches: select asserted and the data line
driven exactly in their phases, the clock high only inside a bit cell, IDLE, 0, 0 whenever BUSY is 0, WIN_LOW 0x00 or
0x80. -/
def Obligations.StepsKeepTheLatchInvariant : Prop :=
  ∀ s t : State, LatchInv s → step s = .next t → LatchInv t

/-- The same for the small steps, in which a request can be cut by a reset at any tick (R210, log 8). -/
def Obligations.SmallStepsKeepTheLatchInvariant : Prop :=
  ∀ s t : State, LatchInv s → smallStep s = .next t → LatchInv t

/-- The invariant of the latches, the validity of the default parameters, and the agreement of cache and power line with
the (empty) trace hold at reset (R25, R6). -/
def Obligations.ResetSatisfiesTheLatchInvariant : Prop :=
  LatchInv State.reset ∧ ParamsValid State.reset.cfg ∧ Coherent State.reset ∧ PowerTraced State.reset

/-- The sequencers implement the requests (R101, R140, R172, D22): accepting a request and ticking until it completes
leaves exactly the state of its big-step meaning, wires, buffers, cache and result included. -/
def Obligations.TicksRefineTheRequest : Prop :=
  ∀ (i : Instr) (s t : State), LatchInv s → exec i s = .next t → ∃ k, ticks k (accept i s) = t

/-- R101, R195: operations run to completion: a busy block that is not reset reaches BUSY = 0.
That it holds whatever the latches hold rests on the model's choice for phase combinations no request reaches (log 25),
and that PWRON's waits return on the spec's decision D18 (log 11). -/
def Obligations.BusyBlockRunsToCompletion : Prop :=
  ∀ s : State, s.busy = true → s.resetIn = false →
    ∃ k t, Host.Core.run Sys2Proof.core k s = .next t ∧ t.busy = false

/-- R101, R231: a transfer once started reaches RELEASE, after exactly 8 * (wl + rl) clock pulses. -/
def Obligations.TransferReachesRelease : Prop :=
  ∀ s : State, s.phase = .select → s.clk = false →
    ∃ k ps, (ticks k s).phase = .release ∧ (ticks k s).pins = s.pins ++ ps ∧
      pulses ps = 8 * (s.txbuf.length + s.rxLen)

/-- R40, R100, R103 to R106: a monitor that watches select, clock, direction and data reads from the pin events of a
request exactly its frame-grain events: the frame grain is what the pins say.
The order of events in a bit cell is the spec's decision D4 (log 21). -/
def Obligations.PinsCarryTheFrames : Prop :=
  ∀ (i : Instr) (s t : State), exec i s = .next t →
    ∃ ps fs, t.pins = s.pins ++ ps ∧ t.frames = s.frames ++ fs ∧ observe ps = fs

/-- R231: a request makes exactly 8 * (bytes out + bytes in) clock pulses over its frames.
The pin grain is the spec's refinement (R9, D4). -/
def Obligations.ClockPulsesCountTheBytes : Prop :=
  ∀ (i : Instr) (s t : State), exec i s = .next t →
    ∃ ps fs, t.pins = s.pins ++ ps ∧ t.frames = s.frames ++ fs ∧ pulses ps = 8 * bytesMoved fs

/-- R30: no operation branches on received data. With another chip the same request completes too, drives the same
bytes in the same frames, samples as many bits, and leaves the same cache, power line, pins and position.
That CMD and the buffers are compared after completion is the model's (log 6), and the waits of PWRON return (D18,
log 11). -/
def Obligations.ReceivedDataSteersNothing : Prop :=
  ∀ (i : Instr) (s t : State) (bits : List Bool), exec i s = .next t →
    ∃ u fs gs, exec i { s with chipBits := bits } = .next u ∧
      t.frames = s.frames ++ fs ∧ u.frames = s.frames ++ gs ∧ fs.map driven = gs.map driven ∧
      u.drawCount = t.drawCount ∧ SameCache t u ∧ SamePins t u ∧ u.pwr = t.pwr ∧ u.delays = t.delays ∧
      u.cmd = t.cmd ∧ u.txbuf = t.txbuf ∧ u.rxbuf.length = t.rxbuf.length ∧ Over t ∧ Over u

/-- R181: for a sequence of addresses SETWIN emits exactly one write per byte that differs from the immediately
preceding emitted value, a byte never emitted since reset differing from everything; afterwards the cache is the
value last emitted. -/
def Obligations.WindowCachingProperty : Prop :=
  ∀ (addrs : List Word) (s : State), s.busy = false →
    ∃ t, setWindows addrs s = .next t ∧
      t.frames = s.frames ++ windowWrites s.cfg (lastEmitted s) addrs ∧
      ∀ a, addrs.getLast? = some a → CacheIs t a

/-- R181: consecutive same-window addresses emit zero writes. -/
def Obligations.SameWindowEmitsNothing : Prop :=
  ∀ (s t : State) (a b : Word), exec (.setwin a) s = .next t → a.extractLsb' 15 17 = b.extractLsb' 15 17 →
    ∃ u, exec (.setwin b) t = .next u ∧ u.frames = t.frames ∧ u.pins = t.pins

/-- R27, R55, R61, R224: with a right cache and the chip powered (the requester's duty of R224), SETWIN and every
windowed access leave the chip's window registers, as the wires tell, at the window of the address, and the cache
right. The observer of the chip's registers is the model's, for a chip that is ready and in the normal byte order
(log 19). -/
def Obligations.WindowRequestsSelectTheWindow : Prop :=
  ∀ (i : Instr) (s t : State) (a : Word), windowOf i = some a → ParamsValid s.cfg → Coherent s →
    s.pwr = true → PowerTraced s → exec i s = .next t → WindowIs (chipWindow t.cfg t.frames) a ∧ Coherent t

/-- R27: register reads leave a right cache right: they write no window register and touch no cache byte.
The observer of the chip's registers is the model's (log 19). -/
def Obligations.ReadsKeepTheCacheRight : Prop :=
  ∀ (i : Instr) (s t : State), Coherent s →
    (∃ fn inc addr n, i = .rdn fn inc addr n) ∨ (∃ fn addr, i = .rd8 fn addr) ∨ (∃ fn addr, i = .rd16 fn addr) ∨
      (∃ fn addr, i = .rd32 fn addr) ∨ (∃ fn addr, i = .rd32s fn addr) →
    exec i s = .next t → Coherent t

/-- R220: the stale cache. A power cycle of the chip without a block reset leaves the cache as it was while nothing is
known of the chip's registers, so the next access to the cached window sends the
one frame of the access itself and no window write.
The observer of the chip's registers is the model's (log 19).
inc = 1 is the spec's decision D2 (log 21). -/
def Obligations.PowerCycleLeavesAStaleCache : Prop :=
  ∀ (s t : State) (a : Word), CacheIs s a → exec .pwron s = .next t → a.toNat % 0x8000 + 4 ≤ 0x8000 →
    chipWindow t.cfg t.frames = ChipWindow.unknown true ∧
      ∃ u rx, exec (.bprd32 a) t = .next u ∧ rx.length = 8 ∧
        u.frames = t.frames ++
          [.frame (cmdBytes (cmdWord 0#1 1#1 1#2 ((a &&& 0x7FFF#32) ||| t.cfg.access32Flag.setWidth 32) 4#32)) rx]

/-- R6, R58: no step writes the parameters or the chip's script; the traces and the count of samples only grow; only an
idle block takes a request from the queue. -/
def Obligations.StepsOnlyAppendToTheTraces : Prop :=
  ∀ s t : State, step s = .next t →
    t.cfg = s.cfg ∧ t.chipBits = s.chipBits ∧ s.drawCount ≤ t.drawCount ∧ s.frames <+: t.frames ∧
      s.pins <+: t.pins ∧ s.delays <+: t.delays ∧
      (t.requests = s.requests ∨
        (s.busy = false ∧ s.resetIn = false ∧ ∃ img, s.requests = img :: t.requests))

/-- R172: only a windowed access comes to BW_ACCESS, its window then cached. The window sequencer of SETWIN on its own
stops after BW_LOW: at no tick from its acceptance on does it hold BW_ACCESS. For a request that is not of the window
family it stays IDLE at every tick. The ticks are the small grain of log 8. -/
def Obligations.OnlyWindowedAccessesReachBwAccess : Prop :=
  (∀ (a : Word) (s : State) (k : Nat), (ticks k (accept (.setwin a) s)).bwPhase ≠ .bwAccess) ∧
  (∀ (i : Instr) (s : State) (k : Nat), LatchInv s → s.busy = false → windowOf i = none →
    (ticks k (accept i s)).bwPhase = .idle) ∧
  (∀ (i : Instr) (s t : State) (a : Word), LatchInv s → windowOf i = some a → i ≠ .setwin a → exec i s = .next t →
    ∃ k, (ticks k (accept i s)).bwPhase = .bwAccess ∧ CacheIs (ticks k (accept i s)) a)

/-- R224, R29: the block does not check PWR before a transfer: any request but PWRON and PWROFF runs the same with the
power line at either level, and leaves the same state but for the line itself. -/
def Obligations.PowerLineGatesNothing : Prop :=
  ∀ (i : Instr) (s t : State) (level : Bool), i ≠ .pwron → i ≠ .pwroff → exec i s = .next t →
    exec i { s with pwr := level } = .next { t with pwr := level }

/-- R224, D24: what a transfer sends with PWR = 0 goes nowhere: a request other than PWRON leaves nothing known of the
chip's window registers, though SETWIN and the windowed accesses cache their window.
The observer of the chip's registers is the model's (log 19). -/
def Obligations.UnpoweredWritesGoNowhere : Prop :=
  ∀ (i : Instr) (s t : State), s.pwr = false → PowerTraced s → i ≠ .pwron → exec i s = .next t →
    chipWindow t.cfg t.frames = ChipWindow.unknown false ∧ (∀ a, windowOf i = some a → CacheIs t a)

/-- R18, R25, R29: the power line and the trace agree at every next state: a request, a step and a small step keep the
agreement (the observer of the trace is the model's, log 19). -/
def Obligations.StepsKeepThePowerTrace : Prop :=
  ∀ s t : State, PowerTraced s →
    ((∃ i, exec i s = .next t) ∨ step s = .next t ∨ smallStep s = .next t) → PowerTraced t
end

