-- ==== Sys2Proof/Laws/Chip.lean ====
section
/-! SUPPORT. The observer of the chip (log 19), event by event. -/
namespace Sys2Proof.Safety
open Machine

@[simp] theorem chipWindow_nil (cfg : Params) : chipWindow cfg [] = ChipWindow.unknown false := rfl

/-- What a longer trace says, from what its beginning says. -/
theorem chipWindow_append (cfg : Params) (fs gs : List FrameEvent) :
    chipWindow cfg (fs ++ gs) = gs.foldl (ChipWindow.see cfg) (chipWindow cfg fs) := by
  simp [chipWindow]

/-- A power event leaves only the level known (R27, R220). -/
@[simp] theorem see_power (cfg : Params) (w : ChipWindow) (level : Bool) :
    w.see cfg (.power level) = ChipWindow.unknown level := rfl

/-- A frame does not change the chip's power. -/
@[simp] theorem see_frame_on (cfg : Params) (w : ChipWindow) (tx rx : List Byte) :
    (w.see cfg (.frame tx rx)).on = w.on := by
  simp only [ChipWindow.see]; split <;> rfl

/-- A frame goes nowhere without power (R224). -/
theorem see_frame_off {cfg : Params} {w : ChipWindow} (h : w.on = false) (tx rx : List Byte) :
    w.see cfg (.frame tx rx) = w := by
  simp [ChipWindow.see, h]

/-- With power a frame is a write of the registers it addresses. -/
theorem see_frame_on_eq {cfg : Params} {w : ChipWindow} (h : w.on = true) (tx rx : List Byte) :
    w.see cfg (.frame tx rx) = w.write cfg tx := by
  simp [ChipWindow.see, h]

/-- One event leaves nothing known of a chip without power that was so before. -/
theorem see_unpowered {cfg : Params} {w : ChipWindow} (hw : w.on = false → w = ChipWindow.unknown false)
    (e : FrameEvent) (h : (w.see cfg e).on = false) : w.see cfg e = ChipWindow.unknown false := by
  cases e with
  | frame tx rx => rw [see_frame_on] at h; rw [see_frame_off h, hw h]
  | power level => cases level <;> first | rfl | cases h

/-- Nothing is known of a chip without power. -/
theorem chipWindow_off {cfg : Params} (fs : List FrameEvent) (h : (chipWindow cfg fs).on = false) :
    chipWindow cfg fs = ChipWindow.unknown false := by
  induction fs using List.reverseRecOn with
  | nil => rfl
  | append_singleton fs e ih =>
    rw [chipWindow_append] at h ⊢
    exact see_unpowered ih e h

end Sys2Proof.Safety
end

