-- ==== Sys2Proof/Laws/State.lean ====
section
/-! SUPPORT. One lemma per field per update of the state: what each named operation writes and what it leaves, true by
rfl, so that no later proof unfolds a record update. -/
namespace Sys2Proof.Machine

variable (s : State)

/-! ## setBusy -/
@[simp] theorem setBusy_winHigh : (setBusy s).winHigh = s.winHigh := rfl
@[simp] theorem setBusy_winMed : (setBusy s).winMed = s.winMed := rfl
@[simp] theorem setBusy_winLow : (setBusy s).winLow = s.winLow := rfl
@[simp] theorem setBusy_winValid : (setBusy s).winValid = s.winValid := rfl
@[simp] theorem setBusy_pwr : (setBusy s).pwr = s.pwr := rfl
@[simp] theorem setBusy_sel : (setBusy s).sel = s.sel := rfl
@[simp] theorem setBusy_clk : (setBusy s).clk = s.clk := rfl
@[simp] theorem setBusy_ddir : (setBusy s).ddir = s.ddir := rfl
@[simp] theorem setBusy_dout : (setBusy s).dout = s.dout := rfl
@[simp] theorem setBusy_busy : (setBusy s).busy = true := rfl
@[simp] theorem setBusy_phase : (setBusy s).phase = s.phase := rfl
@[simp] theorem setBusy_raPhase : (setBusy s).raPhase = s.raPhase := rfl
@[simp] theorem setBusy_bwPhase : (setBusy s).bwPhase = s.bwPhase := rfl
@[simp] theorem setBusy_byteCnt : (setBusy s).byteCnt = s.byteCnt := rfl
@[simp] theorem setBusy_bitCnt : (setBusy s).bitCnt = s.bitCnt := rfl
@[simp] theorem setBusy_cmd : (setBusy s).cmd = s.cmd := rfl
@[simp] theorem setBusy_txbuf : (setBusy s).txbuf = s.txbuf := rfl
@[simp] theorem setBusy_rxbuf : (setBusy s).rxbuf = s.rxbuf := rfl
@[simp] theorem setBusy_shreg : (setBusy s).shreg = s.shreg := rfl
@[simp] theorem setBusy_req : (setBusy s).req = s.req := rfl
@[simp] theorem setBusy_acc : (setBusy s).acc = s.acc := rfl
@[simp] theorem setBusy_rxLen : (setBusy s).rxLen = s.rxLen := rfl
@[simp] theorem setBusy_result : (setBusy s).result = s.result := rfl
@[simp] theorem setBusy_requests : (setBusy s).requests = s.requests := rfl
@[simp] theorem setBusy_resetIn : (setBusy s).resetIn = s.resetIn := rfl
@[simp] theorem setBusy_chipBits : (setBusy s).chipBits = s.chipBits := rfl
@[simp] theorem setBusy_drawCount : (setBusy s).drawCount = s.drawCount := rfl
@[simp] theorem setBusy_frames : (setBusy s).frames = s.frames := rfl
@[simp] theorem setBusy_pins : (setBusy s).pins = s.pins := rfl
@[simp] theorem setBusy_delays : (setBusy s).delays = s.delays := rfl
@[simp] theorem setBusy_cfg : (setBusy s).cfg = s.cfg := rfl

/-! ## cacheHigh -/
@[simp] theorem cacheHigh_winHigh (v : Byte) : (cacheHigh v s).winHigh = v := rfl
@[simp] theorem cacheHigh_winMed (v : Byte) : (cacheHigh v s).winMed = s.winMed := rfl
@[simp] theorem cacheHigh_winLow (v : Byte) : (cacheHigh v s).winLow = s.winLow := rfl
@[simp] theorem cacheHigh_winValid (v : Byte) : (cacheHigh v s).winValid = s.winValid ||| validBit 2 := rfl
@[simp] theorem cacheHigh_pwr (v : Byte) : (cacheHigh v s).pwr = s.pwr := rfl
@[simp] theorem cacheHigh_sel (v : Byte) : (cacheHigh v s).sel = s.sel := rfl
@[simp] theorem cacheHigh_clk (v : Byte) : (cacheHigh v s).clk = s.clk := rfl
@[simp] theorem cacheHigh_ddir (v : Byte) : (cacheHigh v s).ddir = s.ddir := rfl
@[simp] theorem cacheHigh_dout (v : Byte) : (cacheHigh v s).dout = s.dout := rfl
@[simp] theorem cacheHigh_busy (v : Byte) : (cacheHigh v s).busy = s.busy := rfl
@[simp] theorem cacheHigh_phase (v : Byte) : (cacheHigh v s).phase = s.phase := rfl
@[simp] theorem cacheHigh_raPhase (v : Byte) : (cacheHigh v s).raPhase = s.raPhase := rfl
@[simp] theorem cacheHigh_bwPhase (v : Byte) : (cacheHigh v s).bwPhase = s.bwPhase := rfl
@[simp] theorem cacheHigh_byteCnt (v : Byte) : (cacheHigh v s).byteCnt = s.byteCnt := rfl
@[simp] theorem cacheHigh_bitCnt (v : Byte) : (cacheHigh v s).bitCnt = s.bitCnt := rfl
@[simp] theorem cacheHigh_cmd (v : Byte) : (cacheHigh v s).cmd = s.cmd := rfl
@[simp] theorem cacheHigh_txbuf (v : Byte) : (cacheHigh v s).txbuf = s.txbuf := rfl
@[simp] theorem cacheHigh_rxbuf (v : Byte) : (cacheHigh v s).rxbuf = s.rxbuf := rfl
@[simp] theorem cacheHigh_shreg (v : Byte) : (cacheHigh v s).shreg = s.shreg := rfl
@[simp] theorem cacheHigh_req (v : Byte) : (cacheHigh v s).req = s.req := rfl
@[simp] theorem cacheHigh_acc (v : Byte) : (cacheHigh v s).acc = s.acc := rfl
@[simp] theorem cacheHigh_rxLen (v : Byte) : (cacheHigh v s).rxLen = s.rxLen := rfl
@[simp] theorem cacheHigh_result (v : Byte) : (cacheHigh v s).result = s.result := rfl
@[simp] theorem cacheHigh_requests (v : Byte) : (cacheHigh v s).requests = s.requests := rfl
@[simp] theorem cacheHigh_resetIn (v : Byte) : (cacheHigh v s).resetIn = s.resetIn := rfl
@[simp] theorem cacheHigh_chipBits (v : Byte) : (cacheHigh v s).chipBits = s.chipBits := rfl
@[simp] theorem cacheHigh_drawCount (v : Byte) : (cacheHigh v s).drawCount = s.drawCount := rfl
@[simp] theorem cacheHigh_frames (v : Byte) : (cacheHigh v s).frames = s.frames := rfl
@[simp] theorem cacheHigh_pins (v : Byte) : (cacheHigh v s).pins = s.pins := rfl
@[simp] theorem cacheHigh_delays (v : Byte) : (cacheHigh v s).delays = s.delays := rfl
@[simp] theorem cacheHigh_cfg (v : Byte) : (cacheHigh v s).cfg = s.cfg := rfl

/-! ## cacheMed -/
@[simp] theorem cacheMed_winHigh (v : Byte) : (cacheMed v s).winHigh = s.winHigh := rfl
@[simp] theorem cacheMed_winMed (v : Byte) : (cacheMed v s).winMed = v := rfl
@[simp] theorem cacheMed_winLow (v : Byte) : (cacheMed v s).winLow = s.winLow := rfl
@[simp] theorem cacheMed_winValid (v : Byte) : (cacheMed v s).winValid = s.winValid ||| validBit 1 := rfl
@[simp] theorem cacheMed_pwr (v : Byte) : (cacheMed v s).pwr = s.pwr := rfl
@[simp] theorem cacheMed_sel (v : Byte) : (cacheMed v s).sel = s.sel := rfl
@[simp] theorem cacheMed_clk (v : Byte) : (cacheMed v s).clk = s.clk := rfl
@[simp] theorem cacheMed_ddir (v : Byte) : (cacheMed v s).ddir = s.ddir := rfl
@[simp] theorem cacheMed_dout (v : Byte) : (cacheMed v s).dout = s.dout := rfl
@[simp] theorem cacheMed_busy (v : Byte) : (cacheMed v s).busy = s.busy := rfl
@[simp] theorem cacheMed_phase (v : Byte) : (cacheMed v s).phase = s.phase := rfl
@[simp] theorem cacheMed_raPhase (v : Byte) : (cacheMed v s).raPhase = s.raPhase := rfl
@[simp] theorem cacheMed_bwPhase (v : Byte) : (cacheMed v s).bwPhase = s.bwPhase := rfl
@[simp] theorem cacheMed_byteCnt (v : Byte) : (cacheMed v s).byteCnt = s.byteCnt := rfl
@[simp] theorem cacheMed_bitCnt (v : Byte) : (cacheMed v s).bitCnt = s.bitCnt := rfl
@[simp] theorem cacheMed_cmd (v : Byte) : (cacheMed v s).cmd = s.cmd := rfl
@[simp] theorem cacheMed_txbuf (v : Byte) : (cacheMed v s).txbuf = s.txbuf := rfl
@[simp] theorem cacheMed_rxbuf (v : Byte) : (cacheMed v s).rxbuf = s.rxbuf := rfl
@[simp] theorem cacheMed_shreg (v : Byte) : (cacheMed v s).shreg = s.shreg := rfl
@[simp] theorem cacheMed_req (v : Byte) : (cacheMed v s).req = s.req := rfl
@[simp] theorem cacheMed_acc (v : Byte) : (cacheMed v s).acc = s.acc := rfl
@[simp] theorem cacheMed_rxLen (v : Byte) : (cacheMed v s).rxLen = s.rxLen := rfl
@[simp] theorem cacheMed_result (v : Byte) : (cacheMed v s).result = s.result := rfl
@[simp] theorem cacheMed_requests (v : Byte) : (cacheMed v s).requests = s.requests := rfl
@[simp] theorem cacheMed_resetIn (v : Byte) : (cacheMed v s).resetIn = s.resetIn := rfl
@[simp] theorem cacheMed_chipBits (v : Byte) : (cacheMed v s).chipBits = s.chipBits := rfl
@[simp] theorem cacheMed_drawCount (v : Byte) : (cacheMed v s).drawCount = s.drawCount := rfl
@[simp] theorem cacheMed_frames (v : Byte) : (cacheMed v s).frames = s.frames := rfl
@[simp] theorem cacheMed_pins (v : Byte) : (cacheMed v s).pins = s.pins := rfl
@[simp] theorem cacheMed_delays (v : Byte) : (cacheMed v s).delays = s.delays := rfl
@[simp] theorem cacheMed_cfg (v : Byte) : (cacheMed v s).cfg = s.cfg := rfl

/-! ## cacheLow -/
@[simp] theorem cacheLow_winHigh (v : Byte) : (cacheLow v s).winHigh = s.winHigh := rfl
@[simp] theorem cacheLow_winMed (v : Byte) : (cacheLow v s).winMed = s.winMed := rfl
@[simp] theorem cacheLow_winLow (v : Byte) : (cacheLow v s).winLow = v := rfl
@[simp] theorem cacheLow_winValid (v : Byte) : (cacheLow v s).winValid = s.winValid ||| validBit 0 := rfl
@[simp] theorem cacheLow_pwr (v : Byte) : (cacheLow v s).pwr = s.pwr := rfl
@[simp] theorem cacheLow_sel (v : Byte) : (cacheLow v s).sel = s.sel := rfl
@[simp] theorem cacheLow_clk (v : Byte) : (cacheLow v s).clk = s.clk := rfl
@[simp] theorem cacheLow_ddir (v : Byte) : (cacheLow v s).ddir = s.ddir := rfl
@[simp] theorem cacheLow_dout (v : Byte) : (cacheLow v s).dout = s.dout := rfl
@[simp] theorem cacheLow_busy (v : Byte) : (cacheLow v s).busy = s.busy := rfl
@[simp] theorem cacheLow_phase (v : Byte) : (cacheLow v s).phase = s.phase := rfl
@[simp] theorem cacheLow_raPhase (v : Byte) : (cacheLow v s).raPhase = s.raPhase := rfl
@[simp] theorem cacheLow_bwPhase (v : Byte) : (cacheLow v s).bwPhase = s.bwPhase := rfl
@[simp] theorem cacheLow_byteCnt (v : Byte) : (cacheLow v s).byteCnt = s.byteCnt := rfl
@[simp] theorem cacheLow_bitCnt (v : Byte) : (cacheLow v s).bitCnt = s.bitCnt := rfl
@[simp] theorem cacheLow_cmd (v : Byte) : (cacheLow v s).cmd = s.cmd := rfl
@[simp] theorem cacheLow_txbuf (v : Byte) : (cacheLow v s).txbuf = s.txbuf := rfl
@[simp] theorem cacheLow_rxbuf (v : Byte) : (cacheLow v s).rxbuf = s.rxbuf := rfl
@[simp] theorem cacheLow_shreg (v : Byte) : (cacheLow v s).shreg = s.shreg := rfl
@[simp] theorem cacheLow_req (v : Byte) : (cacheLow v s).req = s.req := rfl
@[simp] theorem cacheLow_acc (v : Byte) : (cacheLow v s).acc = s.acc := rfl
@[simp] theorem cacheLow_rxLen (v : Byte) : (cacheLow v s).rxLen = s.rxLen := rfl
@[simp] theorem cacheLow_result (v : Byte) : (cacheLow v s).result = s.result := rfl
@[simp] theorem cacheLow_requests (v : Byte) : (cacheLow v s).requests = s.requests := rfl
@[simp] theorem cacheLow_resetIn (v : Byte) : (cacheLow v s).resetIn = s.resetIn := rfl
@[simp] theorem cacheLow_chipBits (v : Byte) : (cacheLow v s).chipBits = s.chipBits := rfl
@[simp] theorem cacheLow_drawCount (v : Byte) : (cacheLow v s).drawCount = s.drawCount := rfl
@[simp] theorem cacheLow_frames (v : Byte) : (cacheLow v s).frames = s.frames := rfl
@[simp] theorem cacheLow_pins (v : Byte) : (cacheLow v s).pins = s.pins := rfl
@[simp] theorem cacheLow_delays (v : Byte) : (cacheLow v s).delays = s.delays := rfl
@[simp] theorem cacheLow_cfg (v : Byte) : (cacheLow v s).cfg = s.cfg := rfl

/-! ## setPower -/
@[simp] theorem setPower_winHigh (l : Bool) : (setPower l s).winHigh = s.winHigh := rfl
@[simp] theorem setPower_winMed (l : Bool) : (setPower l s).winMed = s.winMed := rfl
@[simp] theorem setPower_winLow (l : Bool) : (setPower l s).winLow = s.winLow := rfl
@[simp] theorem setPower_winValid (l : Bool) : (setPower l s).winValid = s.winValid := rfl
@[simp] theorem setPower_pwr (l : Bool) : (setPower l s).pwr = l := rfl
@[simp] theorem setPower_sel (l : Bool) : (setPower l s).sel = s.sel := rfl
@[simp] theorem setPower_clk (l : Bool) : (setPower l s).clk = s.clk := rfl
@[simp] theorem setPower_ddir (l : Bool) : (setPower l s).ddir = s.ddir := rfl
@[simp] theorem setPower_dout (l : Bool) : (setPower l s).dout = s.dout := rfl
@[simp] theorem setPower_busy (l : Bool) : (setPower l s).busy = s.busy := rfl
@[simp] theorem setPower_phase (l : Bool) : (setPower l s).phase = s.phase := rfl
@[simp] theorem setPower_raPhase (l : Bool) : (setPower l s).raPhase = s.raPhase := rfl
@[simp] theorem setPower_bwPhase (l : Bool) : (setPower l s).bwPhase = s.bwPhase := rfl
@[simp] theorem setPower_byteCnt (l : Bool) : (setPower l s).byteCnt = s.byteCnt := rfl
@[simp] theorem setPower_bitCnt (l : Bool) : (setPower l s).bitCnt = s.bitCnt := rfl
@[simp] theorem setPower_cmd (l : Bool) : (setPower l s).cmd = s.cmd := rfl
@[simp] theorem setPower_txbuf (l : Bool) : (setPower l s).txbuf = s.txbuf := rfl
@[simp] theorem setPower_rxbuf (l : Bool) : (setPower l s).rxbuf = s.rxbuf := rfl
@[simp] theorem setPower_shreg (l : Bool) : (setPower l s).shreg = s.shreg := rfl
@[simp] theorem setPower_req (l : Bool) : (setPower l s).req = s.req := rfl
@[simp] theorem setPower_acc (l : Bool) : (setPower l s).acc = s.acc := rfl
@[simp] theorem setPower_rxLen (l : Bool) : (setPower l s).rxLen = s.rxLen := rfl
@[simp] theorem setPower_result (l : Bool) : (setPower l s).result = s.result := rfl
@[simp] theorem setPower_requests (l : Bool) : (setPower l s).requests = s.requests := rfl
@[simp] theorem setPower_resetIn (l : Bool) : (setPower l s).resetIn = s.resetIn := rfl
@[simp] theorem setPower_chipBits (l : Bool) : (setPower l s).chipBits = s.chipBits := rfl
@[simp] theorem setPower_drawCount (l : Bool) : (setPower l s).drawCount = s.drawCount := rfl
@[simp] theorem setPower_frames (l : Bool) : (setPower l s).frames = s.frames ++ [.power l] := rfl
@[simp] theorem setPower_pins (l : Bool) : (setPower l s).pins = s.pins ++ [.power l] := rfl
@[simp] theorem setPower_delays (l : Bool) : (setPower l s).delays = s.delays := rfl
@[simp] theorem setPower_cfg (l : Bool) : (setPower l s).cfg = s.cfg := rfl

/-! ## waitAtLeast -/
@[simp] theorem waitAtLeast_winHigh (ms : Nat) : (waitAtLeast ms s).winHigh = s.winHigh := rfl
@[simp] theorem waitAtLeast_winMed (ms : Nat) : (waitAtLeast ms s).winMed = s.winMed := rfl
@[simp] theorem waitAtLeast_winLow (ms : Nat) : (waitAtLeast ms s).winLow = s.winLow := rfl
@[simp] theorem waitAtLeast_winValid (ms : Nat) : (waitAtLeast ms s).winValid = s.winValid := rfl
@[simp] theorem waitAtLeast_pwr (ms : Nat) : (waitAtLeast ms s).pwr = s.pwr := rfl
@[simp] theorem waitAtLeast_sel (ms : Nat) : (waitAtLeast ms s).sel = s.sel := rfl
@[simp] theorem waitAtLeast_clk (ms : Nat) : (waitAtLeast ms s).clk = s.clk := rfl
@[simp] theorem waitAtLeast_ddir (ms : Nat) : (waitAtLeast ms s).ddir = s.ddir := rfl
@[simp] theorem waitAtLeast_dout (ms : Nat) : (waitAtLeast ms s).dout = s.dout := rfl
@[simp] theorem waitAtLeast_busy (ms : Nat) : (waitAtLeast ms s).busy = s.busy := rfl
@[simp] theorem waitAtLeast_phase (ms : Nat) : (waitAtLeast ms s).phase = s.phase := rfl
@[simp] theorem waitAtLeast_raPhase (ms : Nat) : (waitAtLeast ms s).raPhase = s.raPhase := rfl
@[simp] theorem waitAtLeast_bwPhase (ms : Nat) : (waitAtLeast ms s).bwPhase = s.bwPhase := rfl
@[simp] theorem waitAtLeast_byteCnt (ms : Nat) : (waitAtLeast ms s).byteCnt = s.byteCnt := rfl
@[simp] theorem waitAtLeast_bitCnt (ms : Nat) : (waitAtLeast ms s).bitCnt = s.bitCnt := rfl
@[simp] theorem waitAtLeast_cmd (ms : Nat) : (waitAtLeast ms s).cmd = s.cmd := rfl
@[simp] theorem waitAtLeast_txbuf (ms : Nat) : (waitAtLeast ms s).txbuf = s.txbuf := rfl
@[simp] theorem waitAtLeast_rxbuf (ms : Nat) : (waitAtLeast ms s).rxbuf = s.rxbuf := rfl
@[simp] theorem waitAtLeast_shreg (ms : Nat) : (waitAtLeast ms s).shreg = s.shreg := rfl
@[simp] theorem waitAtLeast_req (ms : Nat) : (waitAtLeast ms s).req = s.req := rfl
@[simp] theorem waitAtLeast_acc (ms : Nat) : (waitAtLeast ms s).acc = s.acc := rfl
@[simp] theorem waitAtLeast_rxLen (ms : Nat) : (waitAtLeast ms s).rxLen = s.rxLen := rfl
@[simp] theorem waitAtLeast_result (ms : Nat) : (waitAtLeast ms s).result = s.result := rfl
@[simp] theorem waitAtLeast_requests (ms : Nat) : (waitAtLeast ms s).requests = s.requests := rfl
@[simp] theorem waitAtLeast_resetIn (ms : Nat) : (waitAtLeast ms s).resetIn = s.resetIn := rfl
@[simp] theorem waitAtLeast_chipBits (ms : Nat) : (waitAtLeast ms s).chipBits = s.chipBits := rfl
@[simp] theorem waitAtLeast_drawCount (ms : Nat) : (waitAtLeast ms s).drawCount = s.drawCount := rfl
@[simp] theorem waitAtLeast_frames (ms : Nat) : (waitAtLeast ms s).frames = s.frames := rfl
@[simp] theorem waitAtLeast_pins (ms : Nat) : (waitAtLeast ms s).pins = s.pins := rfl
@[simp] theorem waitAtLeast_delays (ms : Nat) : (waitAtLeast ms s).delays = s.delays ++ [ms] := rfl
@[simp] theorem waitAtLeast_cfg (ms : Nat) : (waitAtLeast ms s).cfg = s.cfg := rfl

/-! ## complete -/
@[simp] theorem complete_winHigh (r : Result) : (complete r s).winHigh = s.winHigh := rfl
@[simp] theorem complete_winMed (r : Result) : (complete r s).winMed = s.winMed := rfl
@[simp] theorem complete_winLow (r : Result) : (complete r s).winLow = s.winLow := rfl
@[simp] theorem complete_winValid (r : Result) : (complete r s).winValid = s.winValid := rfl
@[simp] theorem complete_pwr (r : Result) : (complete r s).pwr = s.pwr := rfl
@[simp] theorem complete_sel (r : Result) : (complete r s).sel = s.sel := rfl
@[simp] theorem complete_clk (r : Result) : (complete r s).clk = s.clk := rfl
@[simp] theorem complete_ddir (r : Result) : (complete r s).ddir = s.ddir := rfl
@[simp] theorem complete_dout (r : Result) : (complete r s).dout = s.dout := rfl
@[simp] theorem complete_busy (r : Result) : (complete r s).busy = false := rfl
@[simp] theorem complete_phase (r : Result) : (complete r s).phase = .idle := rfl
@[simp] theorem complete_raPhase (r : Result) : (complete r s).raPhase = .idle := rfl
@[simp] theorem complete_bwPhase (r : Result) : (complete r s).bwPhase = .idle := rfl
@[simp] theorem complete_byteCnt (r : Result) : (complete r s).byteCnt = 0 := rfl
@[simp] theorem complete_bitCnt (r : Result) : (complete r s).bitCnt = 0#3 := rfl
@[simp] theorem complete_cmd (r : Result) : (complete r s).cmd = s.cmd := rfl
@[simp] theorem complete_txbuf (r : Result) : (complete r s).txbuf = s.txbuf := rfl
@[simp] theorem complete_rxbuf (r : Result) : (complete r s).rxbuf = s.rxbuf := rfl
@[simp] theorem complete_shreg (r : Result) : (complete r s).shreg = s.shreg := rfl
@[simp] theorem complete_req (r : Result) : (complete r s).req = none := rfl
@[simp] theorem complete_acc (r : Result) : (complete r s).acc = none := rfl
@[simp] theorem complete_rxLen (r : Result) : (complete r s).rxLen = 0 := rfl
@[simp] theorem complete_result (r : Result) : (complete r s).result = r := rfl
@[simp] theorem complete_requests (r : Result) : (complete r s).requests = s.requests := rfl
@[simp] theorem complete_resetIn (r : Result) : (complete r s).resetIn = s.resetIn := rfl
@[simp] theorem complete_chipBits (r : Result) : (complete r s).chipBits = s.chipBits := rfl
@[simp] theorem complete_drawCount (r : Result) : (complete r s).drawCount = s.drawCount := rfl
@[simp] theorem complete_frames (r : Result) : (complete r s).frames = s.frames := rfl
@[simp] theorem complete_pins (r : Result) : (complete r s).pins = s.pins := rfl
@[simp] theorem complete_delays (r : Result) : (complete r s).delays = s.delays := rfl
@[simp] theorem complete_cfg (r : Result) : (complete r s).cfg = s.cfg := rfl

/-! ## xfer -/
@[simp] theorem xfer_winHigh (tx : List Byte) (rl : Nat) : (xfer tx rl s).winHigh = s.winHigh := rfl
@[simp] theorem xfer_winMed (tx : List Byte) (rl : Nat) : (xfer tx rl s).winMed = s.winMed := rfl
@[simp] theorem xfer_winLow (tx : List Byte) (rl : Nat) : (xfer tx rl s).winLow = s.winLow := rfl
@[simp] theorem xfer_winValid (tx : List Byte) (rl : Nat) : (xfer tx rl s).winValid = s.winValid := rfl
@[simp] theorem xfer_pwr (tx : List Byte) (rl : Nat) : (xfer tx rl s).pwr = s.pwr := rfl
@[simp] theorem xfer_sel (tx : List Byte) (rl : Nat) : (xfer tx rl s).sel = true := rfl
@[simp] theorem xfer_clk (tx : List Byte) (rl : Nat) : (xfer tx rl s).clk = false := rfl
@[simp] theorem xfer_ddir (tx : List Byte) (rl : Nat) : (xfer tx rl s).ddir = .in := rfl
@[simp] theorem xfer_dout (tx : List Byte) (rl : Nat) : (xfer tx rl s).dout = lastDriven tx s.dout := rfl
@[simp] theorem xfer_busy (tx : List Byte) (rl : Nat) : (xfer tx rl s).busy = s.busy := rfl
@[simp] theorem xfer_phase (tx : List Byte) (rl : Nat) : (xfer tx rl s).phase = .idle := rfl
@[simp] theorem xfer_raPhase (tx : List Byte) (rl : Nat) : (xfer tx rl s).raPhase = s.raPhase := rfl
@[simp] theorem xfer_bwPhase (tx : List Byte) (rl : Nat) : (xfer tx rl s).bwPhase = s.bwPhase := rfl
@[simp] theorem xfer_byteCnt (tx : List Byte) (rl : Nat) : (xfer tx rl s).byteCnt = 0 := rfl
@[simp] theorem xfer_bitCnt (tx : List Byte) (rl : Nat) : (xfer tx rl s).bitCnt = 0#3 := rfl
@[simp] theorem xfer_cmd (tx : List Byte) (rl : Nat) : (xfer tx rl s).cmd = s.cmd := rfl
@[simp] theorem xfer_txbuf (tx : List Byte) (rl : Nat) : (xfer tx rl s).txbuf = tx := rfl
@[simp] theorem xfer_rxbuf (tx : List Byte) (rl : Nat) : (xfer tx rl s).rxbuf = drawBytes s.chipBits s.drawCount rl := rfl
@[simp] theorem xfer_shreg (tx : List Byte) (rl : Nat) : (xfer tx rl s).shreg = lastShifted tx (drawBytes s.chipBits s.drawCount rl) s.shreg := rfl
@[simp] theorem xfer_req (tx : List Byte) (rl : Nat) : (xfer tx rl s).req = s.req := rfl
@[simp] theorem xfer_acc (tx : List Byte) (rl : Nat) : (xfer tx rl s).acc = s.acc := rfl
@[simp] theorem xfer_rxLen (tx : List Byte) (rl : Nat) : (xfer tx rl s).rxLen = s.rxLen := rfl
@[simp] theorem xfer_result (tx : List Byte) (rl : Nat) : (xfer tx rl s).result = s.result := rfl
@[simp] theorem xfer_requests (tx : List Byte) (rl : Nat) : (xfer tx rl s).requests = s.requests := rfl
@[simp] theorem xfer_resetIn (tx : List Byte) (rl : Nat) : (xfer tx rl s).resetIn = s.resetIn := rfl
@[simp] theorem xfer_chipBits (tx : List Byte) (rl : Nat) : (xfer tx rl s).chipBits = s.chipBits := rfl
@[simp] theorem xfer_drawCount (tx : List Byte) (rl : Nat) : (xfer tx rl s).drawCount = s.drawCount + 8 * rl := rfl
@[simp] theorem xfer_frames (tx : List Byte) (rl : Nat) : (xfer tx rl s).frames = s.frames ++ [.frame tx (drawBytes s.chipBits s.drawCount rl)] := rfl
@[simp] theorem xfer_pins (tx : List Byte) (rl : Nat) : (xfer tx rl s).pins = s.pins ++ xferPins tx (drawBytes s.chipBits s.drawCount rl) := rfl
@[simp] theorem xfer_delays (tx : List Byte) (rl : Nat) : (xfer tx rl s).delays = s.delays := rfl
@[simp] theorem xfer_cfg (tx : List Byte) (rl : Nat) : (xfer tx rl s).cfg = s.cfg := rfl

/-! ## regAccess -/
@[simp] theorem regAccess_winHigh (a : Access) : (regAccess a s).winHigh = s.winHigh := rfl
@[simp] theorem regAccess_winMed (a : Access) : (regAccess a s).winMed = s.winMed := rfl
@[simp] theorem regAccess_winLow (a : Access) : (regAccess a s).winLow = s.winLow := rfl
@[simp] theorem regAccess_winValid (a : Access) : (regAccess a s).winValid = s.winValid := rfl
@[simp] theorem regAccess_pwr (a : Access) : (regAccess a s).pwr = s.pwr := rfl
@[simp] theorem regAccess_sel (a : Access) : (regAccess a s).sel = true := rfl
@[simp] theorem regAccess_clk (a : Access) : (regAccess a s).clk = false := rfl
@[simp] theorem regAccess_ddir (a : Access) : (regAccess a s).ddir = .in := rfl
@[simp] theorem regAccess_dout (a : Access) : (regAccess a s).dout = lastDriven (accTx a) s.dout := rfl
@[simp] theorem regAccess_busy (a : Access) : (regAccess a s).busy = s.busy := rfl
@[simp] theorem regAccess_phase (a : Access) : (regAccess a s).phase = .idle := rfl
@[simp] theorem regAccess_raPhase (a : Access) : (regAccess a s).raPhase = s.raPhase := rfl
@[simp] theorem regAccess_bwPhase (a : Access) : (regAccess a s).bwPhase = s.bwPhase := rfl
@[simp] theorem regAccess_byteCnt (a : Access) : (regAccess a s).byteCnt = 0 := rfl
@[simp] theorem regAccess_bitCnt (a : Access) : (regAccess a s).bitCnt = 0#3 := rfl
@[simp] theorem regAccess_cmd (a : Access) : (regAccess a s).cmd = accCmd a := rfl
@[simp] theorem regAccess_txbuf (a : Access) : (regAccess a s).txbuf = accTx a := rfl
@[simp] theorem regAccess_rxbuf (a : Access) : (regAccess a s).rxbuf = drawBytes s.chipBits s.drawCount (accRl a) := rfl
@[simp] theorem regAccess_shreg (a : Access) : (regAccess a s).shreg = lastShifted (accTx a) (drawBytes s.chipBits s.drawCount (accRl a)) s.shreg := rfl
@[simp] theorem regAccess_req (a : Access) : (regAccess a s).req = s.req := rfl
@[simp] theorem regAccess_acc (a : Access) : (regAccess a s).acc = s.acc := rfl
@[simp] theorem regAccess_rxLen (a : Access) : (regAccess a s).rxLen = s.rxLen := rfl
@[simp] theorem regAccess_result (a : Access) : (regAccess a s).result = s.result := rfl
@[simp] theorem regAccess_requests (a : Access) : (regAccess a s).requests = s.requests := rfl
@[simp] theorem regAccess_resetIn (a : Access) : (regAccess a s).resetIn = s.resetIn := rfl
@[simp] theorem regAccess_chipBits (a : Access) : (regAccess a s).chipBits = s.chipBits := rfl
@[simp] theorem regAccess_drawCount (a : Access) : (regAccess a s).drawCount = s.drawCount + 8 * accRl a := rfl
@[simp] theorem regAccess_frames (a : Access) : (regAccess a s).frames = s.frames ++ [.frame (accTx a) (drawBytes s.chipBits s.drawCount (accRl a))] := rfl
@[simp] theorem regAccess_pins (a : Access) : (regAccess a s).pins = s.pins ++ xferPins (accTx a) (drawBytes s.chipBits s.drawCount (accRl a)) := rfl
@[simp] theorem regAccess_delays (a : Access) : (regAccess a s).delays = s.delays := rfl
@[simp] theorem regAccess_cfg (a : Access) : (regAccess a s).cfg = s.cfg := rfl

end Sys2Proof.Machine
end

