-- ==== Sys2Proof/Laws/Ops.lean ====
section
/-! SUPPORT. One lemma per shared operation that says once what it can do: sampling, performing a request, exec as
one operation over all requests, SETWIN, block reset, and the step. -/
namespace Sys2Proof.Machine

/-! ## Sampling -/

@[simp] theorem drawBytes_length (script : List Bool) (k n : Nat) : (drawBytes script k n).length = n := by
  simp [drawBytes]

@[simp] theorem drawBytes_zero (script : List Bool) (k : Nat) : drawBytes script k 0 = [] := rfl

theorem drawBytes_succ (script : List Bool) (k n : Nat) :
    drawBytes script k (n + 1) = drawBytes script k n ++ [drawByte script (k + 8 * n)] := by
  simp [drawBytes, List.range_succ]

@[simp] theorem zeros_length (n : Nat) : (zeros n).length = n := by simp [zeros]

theorem roundUp4_ge (n : Nat) : n ≤ roundUp4 n := by unfold roundUp4; omega

theorem roundUp4_lt (n : Nat) : roundUp4 n < n + 4 := by unfold roundUp4; omega

theorem swap16_length : ∀ b : List Byte, (swap16 b).length = b.length
  | [] => rfl
  | [_] => rfl
  | [_, _] => rfl
  | [_, _, _] => rfl
  | _ :: _ :: _ :: _ :: rest => by simp [swap16, swap16_length rest]

/-! ## Performing a request -/

/-- A request completes exactly when the block is free and the request is inside its envelope. -/
theorem perform_next {check : Option Refusal} {run : State → State} {res : State → Result} {s t : State} :
    perform check run res s = .next t ↔
      s.busy = false ∧ check = none ∧ t = complete (res (run (setBusy s))) (run (setBusy s)) := by
  unfold perform
  cases hb : s.busy
  · cases check with
    | none => simp [eq_comm]
    | some r => simp
  · simp

/-- A request never faults (R203). -/
theorem perform_not_fault (check : Option Refusal) (run : State → State) (res : State → Result) (s : State)
    (f : Fault) : perform check run res s ≠ .fault f := by
  cases f

/-- A request that does not complete is refused: BUSY, or the bound of the envelope it breaks. -/
theorem perform_refused {check : Option Refusal} {run : State → State} {res : State → Result} {s : State}
    {r : Refusal} :
    perform check run res s = .refused r ↔ (s.busy = true ∧ r = .busy) ∨ (s.busy = false ∧ check = some r) := by
  unfold perform
  cases hb : s.busy
  · cases check with
    | none => simp
    | some q => simp
  · simp [eq_comm]

/-- What a request does to the state between acceptance and completion. -/
def bodyOf (cfg : Params) (i : Instr) (s : State) : State :=
  match i with
  | .xfer tx wl rl => xfer (tx.take wl.toNat) rl.toNat s
  | .pwron => waitAtLeast tPwrSettleMin (setPower true (waitAtLeast tPwrLowMin (setPower false s)))
  | .pwroff => setPower false s
  | .setwin a => setWindow a s
  | i =>
    match accessOf cfg i, windowOf i with
    | some a, some w => regAccess a (setWindow w s)
    | some a, none => regAccess a s
    | none, _ => s

/-- What a request hands back, from the state its last frame leaves. -/
def answerOf (cfg : Params) (i : Instr) (s : State) : Result :=
  match i with
  | .xfer _ _ _ => .bytes s.rxbuf
  | i =>
    match accessOf cfg i with
    | some a => resultOf (accStrip a s.rxbuf) i
    | none => .none

/-- exec, said once for all requests. -/
theorem exec_eq_perform (i : Instr) (s : State) :
    exec i s = perform (checkOf s.cfg i) (bodyOf s.cfg i) (answerOf s.cfg i) s := by
  cases i <;> rfl

/-- Inversion of exec: what an answered next state is. -/
theorem exec_next {i : Instr} {s t : State} (h : exec i s = .next t) :
    s.busy = false ∧ checkOf s.cfg i = none ∧
      t = complete (answerOf s.cfg i (bodyOf s.cfg i (setBusy s))) (bodyOf s.cfg i (setBusy s)) := by
  rw [exec_eq_perform] at h
  exact perform_next.mp h

/-! ## SETWIN -/

/-- A step of SETWIN either leaves the state or is one window write and its cache byte. -/
theorem winStepHigh_cases (a : Word) (s : State) :
    (differs s 2 s.winHigh (highByte a) = false ∧ winStepHigh a s = s) ∨
      (differs s 2 s.winHigh (highByte a) = true ∧
        winStepHigh a s = cacheHigh (highByte a) (regAccess (winRegAcc s.cfg.winRegHigh (highByte a)) s)) := by
  unfold winStepHigh; cases differs s 2 s.winHigh (highByte a) <;> simp

theorem winStepMed_cases (a : Word) (s : State) :
    (differs s 1 s.winMed (medByte a) = false ∧ winStepMed a s = s) ∨
      (differs s 1 s.winMed (medByte a) = true ∧
        winStepMed a s = cacheMed (medByte a) (regAccess (winRegAcc s.cfg.winRegMed (medByte a)) s)) := by
  unfold winStepMed; cases differs s 1 s.winMed (medByte a) <;> simp

theorem winStepLow_cases (a : Word) (s : State) :
    (differs s 0 s.winLow (lowByte a) = false ∧ winStepLow a s = s) ∨
      (differs s 0 s.winLow (lowByte a) = true ∧
        winStepLow a s = cacheLow (lowByte a) (regAccess (winRegAcc s.cfg.winRegLow (lowByte a)) s)) := by
  unfold winStepLow; cases differs s 0 s.winLow (lowByte a) <;> simp

/-- A cache byte that does not differ is valid and equal. -/
theorem differs_false {s : State} {i : Nat} {c v : Byte} :
    differs s i c v = false ↔ s.winValid.getLsbD i = true ∧ c = v := by
  simp [differs]

theorem or_validBit_of_set : ∀ (v : BitVec 3) (i : Fin 3), v.getLsbD i = true → v ||| validBit i = v := by decide

/-- BW_HIGH leaves the high byte valid and equal, and touches no other cache byte (R171, R183). -/
theorem winStepHigh_cache (a : Word) (s : State) :
    (winStepHigh a s).winHigh = highByte a ∧ (winStepHigh a s).winValid = s.winValid ||| validBit 2 ∧
      (winStepHigh a s).winMed = s.winMed ∧ (winStepHigh a s).winLow = s.winLow := by
  rcases winStepHigh_cases a s with ⟨hd, h⟩ | ⟨_, h⟩ <;> rw [h]
  · obtain ⟨hv, he⟩ := differs_false.mp hd
    exact ⟨he, (or_validBit_of_set _ 2 hv).symm, rfl, rfl⟩
  · simp

theorem winStepMed_cache (a : Word) (s : State) :
    (winStepMed a s).winMed = medByte a ∧ (winStepMed a s).winValid = s.winValid ||| validBit 1 ∧
      (winStepMed a s).winHigh = s.winHigh ∧ (winStepMed a s).winLow = s.winLow := by
  rcases winStepMed_cases a s with ⟨hd, h⟩ | ⟨_, h⟩ <;> rw [h]
  · obtain ⟨hv, he⟩ := differs_false.mp hd
    exact ⟨he, (or_validBit_of_set _ 1 hv).symm, rfl, rfl⟩
  · simp

theorem winStepLow_cache (a : Word) (s : State) :
    (winStepLow a s).winLow = lowByte a ∧ (winStepLow a s).winValid = s.winValid ||| validBit 0 ∧
      (winStepLow a s).winHigh = s.winHigh ∧ (winStepLow a s).winMed = s.winMed := by
  rcases winStepLow_cases a s with ⟨hd, h⟩ | ⟨_, h⟩ <;> rw [h]
  · obtain ⟨hv, he⟩ := differs_false.mp hd
    exact ⟨he, (or_validBit_of_set _ 0 hv).symm, rfl, rfl⟩
  · simp

theorem or_all_validBits : ∀ v : BitVec 3, v ||| validBit 2 ||| validBit 1 ||| validBit 0 = 7#3 := by decide

/-- After SETWIN A the three cache bytes are valid and are those of A (R171). -/
theorem setWindow_cache (a : Word) (s : State) :
    (setWindow a s).winHigh = highByte a ∧ (setWindow a s).winMed = medByte a ∧
      (setWindow a s).winLow = lowByte a ∧ (setWindow a s).winValid = 7#3 := by
  have hh := winStepHigh_cache a s
  have hm := winStepMed_cache a (winStepHigh a s)
  have hl := winStepLow_cache a (winStepMed a (winStepHigh a s))
  unfold setWindow
  refine ⟨?_, ?_, hl.1, ?_⟩
  · rw [hl.2.2.1, hm.2.2.1, hh.1]
  · rw [hl.2.2.2, hm.1]
  · rw [hl.2.1, hm.2.1, hh.2.1, or_all_validBits]

/-- What no step of SETWIN touches: the power line, BUSY, the outer sequencers, the request, the interfaces, the
environment's script, the waits and the parameters. -/
structure WindowKeeps (s t : State) : Prop where
  pwr : t.pwr = s.pwr
  busy : t.busy = s.busy
  raPhase : t.raPhase = s.raPhase
  bwPhase : t.bwPhase = s.bwPhase
  req : t.req = s.req
  acc : t.acc = s.acc
  rxLen : t.rxLen = s.rxLen
  result : t.result = s.result
  requests : t.requests = s.requests
  resetIn : t.resetIn = s.resetIn
  chipBits : t.chipBits = s.chipBits
  drawCount : t.drawCount = s.drawCount
  delays : t.delays = s.delays
  cfg : t.cfg = s.cfg

theorem WindowKeeps.refl (s : State) : WindowKeeps s s :=
  ⟨rfl, rfl, rfl, rfl, rfl, rfl, rfl, rfl, rfl, rfl, rfl, rfl, rfl, rfl⟩

theorem WindowKeeps.trans {s t u : State} (h : WindowKeeps s t) (k : WindowKeeps t u) : WindowKeeps s u := by
  constructor
  · rw [k.pwr, h.pwr]
  · rw [k.busy, h.busy]
  · rw [k.raPhase, h.raPhase]
  · rw [k.bwPhase, h.bwPhase]
  · rw [k.req, h.req]
  · rw [k.acc, h.acc]
  · rw [k.rxLen, h.rxLen]
  · rw [k.result, h.result]
  · rw [k.requests, h.requests]
  · rw [k.resetIn, h.resetIn]
  · rw [k.chipBits, h.chipBits]
  · rw [k.drawCount, h.drawCount]
  · rw [k.delays, h.delays]
  · rw [k.cfg, h.cfg]

theorem winStepHigh_keeps (a : Word) (s : State) : WindowKeeps s (winStepHigh a s) := by
  rcases winStepHigh_cases a s with ⟨_, h⟩ | ⟨_, h⟩ <;> rw [h]
  · exact .refl s
  · constructor <;> simp [winRegAcc, writeAcc, accRl]

theorem winStepMed_keeps (a : Word) (s : State) : WindowKeeps s (winStepMed a s) := by
  rcases winStepMed_cases a s with ⟨_, h⟩ | ⟨_, h⟩ <;> rw [h]
  · exact .refl s
  · constructor <;> simp [winRegAcc, writeAcc, accRl]

theorem winStepLow_keeps (a : Word) (s : State) : WindowKeeps s (winStepLow a s) := by
  rcases winStepLow_cases a s with ⟨_, h⟩ | ⟨_, h⟩ <;> rw [h]
  · exact .refl s
  · constructor <;> simp [winRegAcc, writeAcc, accRl]

/-- SETWIN touches only the window cache, the transfer latches and the traces, and samples nothing (R171, R74). -/
theorem setWindow_keeps (a : Word) (s : State) : WindowKeeps s (setWindow a s) :=
  (winStepHigh_keeps a s).trans ((winStepMed_keeps a _).trans (winStepLow_keeps a _))

/-- SETWIN of an address whose window is cached does nothing at all (R171, R181). -/
theorem setWindow_of_cached {a : Word} {s : State} (hh : differs s 2 s.winHigh (highByte a) = false)
    (hm : differs s 1 s.winMed (medByte a) = false) (hl : differs s 0 s.winLow (lowByte a) = false) :
    setWindow a s = s := by
  simp [setWindow, winStepHigh, winStepMed, winStepLow, hh, hm, hl]

/-! ## Codecs -/

/-- Bit k of a command word (R71, R120): the five fields, and 0 at bit 10 and above bit 31. -/
theorem cmdWord_getLsbD (w i : BitVec 1) (f : BitVec 2) (a n : Word) (k : Nat) :
    (cmdWord w i f a n).getLsbD k =
      (decide (k = 31) && w.getLsbD 0 || decide (k = 30) && i.getLsbD 0 ||
        decide (28 ≤ k ∧ k < 30) && f.getLsbD (k - 28) || decide (11 ≤ k ∧ k < 28) && a.getLsbD (k - 11) ||
        decide (k < 10) && n.getLsbD k) := by
  by_cases hk : k < 32
  · simp only [cmdWord, cmdWriteBit, cmdIncBit, cmdFnLsb, cmdAddrLsb, cmdLenLsb]
    interval_cases k <;> simp
  · rw [BitVec.getLsbD_of_ge _ _ (by omega)]
    have h1 : ¬ k = 31 := by omega
    have h2 : ¬ k = 30 := by omega
    have h3 : ¬ k < 30 := by omega
    have h4 : ¬ k < 28 := by omega
    have h5 : ¬ k < 10 := by omega
    simp [h1, h2, h3, h4, h5]

/-- Eight bits in wire order make the byte they came from (R13, R40). -/
theorem byteOfBits_bitsMsb (b : Byte) : byteOfBits (bitsMsb b) = b := by
  ext k hk; interval_cases k <;> simp [byteOfBits, bitsMsb, shiftInBit]

/-- The low window byte is 0x00 or 0x80 (R16, R170). -/
theorem lowByte_legal (a : Word) : lowByte a = 0x00#8 ∨ lowByte a = 0x80#8 := by
  cases h : a[15]
  · left; ext k hk; interval_cases k <;> simp [lowByte, h]
  · right; ext k hk; interval_cases k <;> simp [lowByte, h]

/-! ## The step -/

/-- Inversion of step: what a next state is. -/
theorem step_next {s t : State} (h : step s = .next t) :
    (s.resetIn = true ∧ t = blockReset s) ∨ (s.resetIn = false ∧ s.busy = true ∧ t = tick s) ∨
      (s.resetIn = false ∧ s.busy = false ∧ s.requests = [] ∧ t = s) ∨
      (∃ i img rest, s.resetIn = false ∧ s.busy = false ∧ s.requests = img :: rest ∧ decode img = .ok i ∧
        exec i { s with requests := rest } = .next t) := by
  unfold step at h
  cases hr : s.resetIn
  · cases hb : s.busy
    · simp only [hr, hb, Bool.false_eq_true, if_false, fetch] at h
      cases hq : s.requests with
      | nil =>
        simp only [hq, Host.Outcome.next.injEq] at h
        exact .inr (.inr (.inl ⟨rfl, rfl, rfl, h.symm⟩))
      | cons img rest =>
        simp only [hq] at h
        cases hd : decode img with
        | error e => simp [hd] at h
        | ok i =>
          simp only [hd] at h
          exact .inr (.inr (.inr ⟨i, img, rest, rfl, rfl, rfl, hd, h⟩))
    · simp only [hr, hb, Bool.false_eq_true, if_false, if_true, Host.Outcome.next.injEq] at h
      exact .inr (.inl ⟨rfl, rfl, h.symm⟩)
  · simp only [hr, if_true, Host.Outcome.next.injEq] at h
    exact .inl ⟨rfl, h.symm⟩

/-- k ticks and then j ticks are k + j ticks. -/
theorem ticks_add (k j : Nat) (s : State) : ticks (k + j) s = ticks j (ticks k s) := by
  induction k generalizing s with
  | zero => simp [ticks]
  | succ k ih => rw [Nat.succ_add]; simp only [ticks, ih]

end Sys2Proof.Machine
end

