-- ==== Sys2Proof/Laws/PerInstr.lean ====
section
/-! SUPPORT. Per request: its image begins with a command word of its own row's pattern (R90, R93). -/
namespace Sys2Proof.Laws.Pattern
open Machine

/-- The row of a request. -/
def row : Instr → Row
  | .xfer _ _ _ => .xfer
  | .pwron => .pwron
  | .pwroff => .pwroff
  | .rdn _ _ _ _ => .rdn
  | .wrn _ _ _ _ _ => .wrn
  | .rd8 _ _ => .rd8
  | .rd16 _ _ => .rd16
  | .rd32 _ _ => .rd32
  | .wr8 _ _ _ => .wr8
  | .wr16 _ _ _ => .wr16
  | .wr32 _ _ _ => .wr32
  | .rd32s _ _ => .rd32s
  | .wr32s _ _ _ => .wr32s
  | .setwin _ => .setwin
  | .bprdn _ _ => .bprdn
  | .bpwrn _ _ _ => .bpwrn
  | .bprd8 _ => .bprd8
  | .bprd16 _ => .bprd16
  | .bprd32 _ => .bprd32
  | .bpwr8 _ _ => .bpwr8
  | .bpwr16 _ _ => .bpwr16
  | .bpwr32 _ _ => .bpwr32

/-- The four first bytes of the request's image are the bytes of a command word with the pattern of its row, and the
fifth names the row (log 2). -/
def Statement (i : Instr) : Prop :=
  ∃ c : Word, (encode i).take 5 = cmdBytes c ++ [rowSel (row i)] ∧ rowMatches (row i) c = true

/-- The beginning of an image. -/
theorem image_take (c xa xn : Word) (r : Row) (data : List Byte) :
    (image c r xa xn data).take 5 = cmdBytes c ++ [rowSel r] := by
  simp [image, cmdBytes, toLE32]

/-- Bits outside the address and function of a word with inc = 1 (R71). -/
theorem mask_register (w : BitVec 1) (f : BitVec 2) (a n : Word) :
    cmdWord w 1#1 f a n &&& 0xC00007FF#32 = cmdWord w 1#1 0#2 0#32 n := by
  apply BitVec.eq_of_getLsbD_eq
  intro k hk
  simp only [BitVec.getLsbD_and, cmdWord_getLsbD]
  interval_cases k <;> simp

/-- The write bit and bit 10 (R71, R72). -/
theorem mask_registerN (w i : BitVec 1) (f : BitVec 2) (a n : Word) :
    cmdWord w i f a n &&& 0x80000400#32 = cmdWord w 0#1 0#2 0#32 0#32 := by
  apply BitVec.eq_of_getLsbD_eq
  intro k hk
  simp only [BitVec.getLsbD_and, cmdWord_getLsbD]
  interval_cases k <;> simp

/-- Bits outside the offset of a windowed word of constant length (R79). -/
theorem mask_window (w : BitVec 1) (a n : Word) :
    cmdWord w 1#1 1#2 (winOffset a ||| 0x8000#32) n &&& 0xFC0007FF#32 = cmdWord w 1#1 1#2 0x8000#32 n := by
  apply BitVec.eq_of_getLsbD_eq
  intro k hk
  simp only [BitVec.getLsbD_and, cmdWord_getLsbD, BitVec.getLsbD_or, winOffset]
  interval_cases k <;> simp

/-- Bits outside the offset and the length of a windowed word (R79). -/
theorem mask_windowN (w : BitVec 1) (a n : Word) :
    cmdWord w 1#1 1#2 (winOffset a ||| 0x8000#32) n &&& 0xFC000400#32 = cmdWord w 1#1 1#2 0x8000#32 0#32 := by
  apply BitVec.eq_of_getLsbD_eq
  intro k hk
  simp only [BitVec.getLsbD_and, cmdWord_getLsbD, BitVec.getLsbD_or, winOffset]
  interval_cases k <;> simp

theorem xfer (tx : List Byte) (wl rl : Word) : Statement (.xfer tx wl rl) :=
  ⟨_, image_take _ _ _ _ _, by simp only [row]; decide⟩

theorem pwron : Statement (.pwron) :=
  ⟨_, image_take _ _ _ _ _, by decide⟩

theorem pwroff : Statement (.pwroff) :=
  ⟨_, image_take _ _ _ _ _, by decide⟩

theorem rdn (fn : BitVec 2) (inc : BitVec 1) (addr n : Word) : Statement (.rdn fn inc addr n) :=
  ⟨_, image_take _ _ _ _ _, by
    simp only [row, rowMatches, rowMask, rowMatch, mask_registerN]; rfl⟩

theorem wrn (fn : BitVec 2) (inc : BitVec 1) (addr n : Word) (b : List Byte) : Statement (.wrn fn inc addr n b) :=
  ⟨_, image_take _ _ _ _ _, by
    simp only [row, rowMatches, rowMask, rowMatch, mask_registerN]; rfl⟩

theorem rd8 (fn : BitVec 2) (addr : Word) : Statement (.rd8 fn addr) :=
  ⟨_, image_take _ _ _ _ _, by
    simp only [row, rowMatches, rowMask, rowMatch, mask_register]; rfl⟩

theorem rd16 (fn : BitVec 2) (addr : Word) : Statement (.rd16 fn addr) :=
  ⟨_, image_take _ _ _ _ _, by
    simp only [row, rowMatches, rowMask, rowMatch, mask_register]; rfl⟩

theorem rd32 (fn : BitVec 2) (addr : Word) : Statement (.rd32 fn addr) :=
  ⟨_, image_take _ _ _ _ _, by
    simp only [row, rowMatches, rowMask, rowMatch, mask_register]; rfl⟩

theorem wr8 (fn : BitVec 2) (addr : Word) (v : Byte) : Statement (.wr8 fn addr v) :=
  ⟨_, image_take _ _ _ _ _, by
    simp only [row, rowMatches, rowMask, rowMatch, mask_register]; rfl⟩

theorem wr16 (fn : BitVec 2) (addr : Word) (v : BitVec 16) : Statement (.wr16 fn addr v) :=
  ⟨_, image_take _ _ _ _ _, by
    simp only [row, rowMatches, rowMask, rowMatch, mask_register]; rfl⟩

theorem wr32 (fn : BitVec 2) (addr : Word) (v : Word) : Statement (.wr32 fn addr v) :=
  ⟨_, image_take _ _ _ _ _, by
    simp only [row, rowMatches, rowMask, rowMatch, mask_register]; rfl⟩

theorem rd32s (fn : BitVec 2) (addr : Word) : Statement (.rd32s fn addr) :=
  ⟨_, image_take _ _ _ _ _, by
    simp only [row, rowMatches, rowMask, rowMatch, mask_register]; rfl⟩

theorem wr32s (fn : BitVec 2) (addr v : Word) : Statement (.wr32s fn addr v) :=
  ⟨_, image_take _ _ _ _ _, by
    simp only [row, rowMatches, rowMask, rowMatch, mask_register]; rfl⟩

theorem setwin (a : Word) : Statement (.setwin a) :=
  ⟨_, image_take _ _ _ _ _, by simp only [row]; decide⟩

theorem bprdn (a n : Word) : Statement (.bprdn a n) :=
  ⟨_, image_take _ _ _ _ _, by
    simp only [row, rowMatches, rowMask, rowMatch, mask_windowN]; rfl⟩

theorem bpwrn (a n : Word) (b : List Byte) : Statement (.bpwrn a n b) :=
  ⟨_, image_take _ _ _ _ _, by
    simp only [row, rowMatches, rowMask, rowMatch, mask_windowN]; rfl⟩

theorem bprd8 (a : Word) : Statement (.bprd8 a) :=
  ⟨_, image_take _ _ _ _ _, by
    simp only [row, rowMatches, rowMask, rowMatch, mask_window]; rfl⟩

theorem bprd16 (a : Word) : Statement (.bprd16 a) :=
  ⟨_, image_take _ _ _ _ _, by
    simp only [row, rowMatches, rowMask, rowMatch, mask_window]; rfl⟩

theorem bprd32 (a : Word) : Statement (.bprd32 a) :=
  ⟨_, image_take _ _ _ _ _, by
    simp only [row, rowMatches, rowMask, rowMatch, mask_window]; rfl⟩

theorem bpwr8 (a : Word) (v : Byte) : Statement (.bpwr8 a v) :=
  ⟨_, image_take _ _ _ _ _, by
    simp only [row, rowMatches, rowMask, rowMatch, mask_window]; rfl⟩

theorem bpwr16 (a : Word) (v : BitVec 16) : Statement (.bpwr16 a v) :=
  ⟨_, image_take _ _ _ _ _, by
    simp only [row, rowMatches, rowMask, rowMatch, mask_window]; rfl⟩

theorem bpwr32 (a : Word) (v : Word) : Statement (.bpwr32 a v) :=
  ⟨_, image_take _ _ _ _ _, by
    simp only [row, rowMatches, rowMask, rowMatch, mask_window]; rfl⟩

end Sys2Proof.Laws.Pattern
end

