-- ==== Sys2Proof/Laws/Requests.lean ====
section
/-! SUPPORT. What a request does, said once for each of its three shapes (R91): when its envelope holds, what it
does between acceptance and completion, and what it hands back. -/
namespace Sys2Proof.Machine

/-! ## The envelope -/

/-- The check of a register access passes exactly inside its envelope (R153). -/
theorem checkReg_none {fn : BitVec 2} {n : Word} : checkReg fn n = none ↔ regInEnvelope fn n = true := by
  unfold checkReg regInEnvelope
  cases fnOk fn <;> cases lenPos n <;> cases lenFits n <;> simp

/-- The check of a windowed access passes exactly inside its envelope (R182). -/
theorem checkWin_none {a n : Word} : checkWin a n = none ↔ winInEnvelope a n = true := by
  unfold checkWin winInEnvelope
  cases windowOk a n <;> cases lenPos n <;> cases lenFits n <;> simp

theorem checkData_none {n : Word} {b : List Byte} {earlier : Option Refusal} :
    checkData n b earlier = none ↔ earlier = none ∧ dataOk n b = true := by
  unfold checkData
  cases earlier <;> cases dataOk n b <;> simp

theorem checkXfer_none {cfg : Params} {tx : List Byte} {wl rl : Word} :
    checkXfer cfg tx wl rl = none ↔ sendOk tx wl = true ∧ rl.toNat ≤ cfg.xferMax := by
  unfold checkXfer
  cases sendOk tx wl <;> simp

/-- The offset of an address is its remainder in the window size (R57, R170). -/
theorem winOffset_toNat (a : Word) : (winOffset a).toNat = a.toNat % 0x8000 := by
  simp only [winOffset, BitVec.toNat_and]
  exact Nat.and_two_pow_sub_one_eq_mod _ 15

/-! ## The three shapes -/

/-- A free block completes every request inside its envelope. -/
theorem exec_completes {i : Instr} {s : State} (hb : s.busy = false) (hc : checkOf s.cfg i = none) :
    exec i s =
      .next (complete (answerOf s.cfg i (bodyOf s.cfg i (setBusy s))) (bodyOf s.cfg i (setBusy s))) := by
  rw [exec_eq_perform]
  exact perform_next.mpr ⟨hb, hc, rfl⟩

/-- A register request is one register access. -/
theorem bodyOf_register {cfg : Params} {i : Instr} {a : Access} {s : State} (ha : accessOf cfg i = some a)
    (hw : windowOf i = none) : bodyOf cfg i s = regAccess a s := by
  cases i <;> simp_all [accessOf, windowOf, bodyOf]

/-- A windowed request is SETWIN and one register access. -/
theorem bodyOf_windowed {cfg : Params} {i : Instr} {a : Access} {w : Word} {s : State}
    (ha : accessOf cfg i = some a) (hw : windowOf i = some w) :
    bodyOf cfg i s = regAccess a (setWindow w s) := by
  cases i <;> simp_all [accessOf, windowOf, bodyOf]

/-- A request with an access hands back what RA_STRIP decodes. -/
theorem answerOf_access {cfg : Params} {i : Instr} {a : Access} {s : State} (ha : accessOf cfg i = some a) :
    answerOf cfg i s = resultOf (accStrip a s.rxbuf) i := by
  cases i <;> simp_all [accessOf, answerOf]

/-! ## Window-register writes -/

/-- A window-register write receives nothing (R74, R171). -/
@[simp] theorem accRl_winRegAcc (reg : BitVec 17) (v : Byte) : accRl (winRegAcc reg v) = 0 := rfl

/-- Its command word goes out first, then the byte and three bytes of filler (R74, R171). -/
theorem accTx_winRegAcc (reg : BitVec 17) (v : Byte) :
    accTx (winRegAcc reg v) = cmdBytes (accCmd (winRegAcc reg v)) ++ [v, 0#8, 0#8, 0#8] := by
  simp [accTx, winRegAcc, writeAcc, accData, roundUp4, toLE8, zeros, List.replicate]

end Sys2Proof.Machine
end

