-- ==== Sys2Proof/Laws/Sequencer.lean ====
section
/-! SUPPORT. The ticks of the bit sequencer, cell by cell and byte by byte (R101, R104, R106), the phase behind
BW_LOW (R172), and what no tick touches. -/
namespace Sys2Proof.Machine

/-- Some number of ticks leads from s to t. -/
def Reaches (s t : State) : Prop := ∃ k, ticks k s = t

theorem Reaches.refl (s : State) : Reaches s s := ⟨0, rfl⟩

theorem Reaches.one (s : State) : Reaches s (tick s) := ⟨1, rfl⟩

theorem Reaches.trans {s t u : State} (h : Reaches s t) (k : Reaches t u) : Reaches s u := by
  obtain ⟨a, rfl⟩ := h
  obtain ⟨b, rfl⟩ := k
  exact ⟨a + b, ticks_add a b s⟩

/-- One output bit cell is two ticks (R104). -/
theorem outCell_ticks (s : State) (hp : s.phase = .shiftOut) (hc : s.clk = false)
    (hb : s.byteCnt < s.txbuf.length) :
    ticks 2 s =
      let v := if s.bitCnt = 7#3 then s.txbuf.getD s.byteCnt 0#8 else s.shreg
      { s with
        shreg := v <<< 1, dout := v.getLsbD 7, clk := false, byteCnt := nextByteCnt s, bitCnt := s.bitCnt - 1#3
        pins := s.pins ++ outCell (v.getLsbD 7) } := by
  simp [ticks, tick, hp, tickShiftOut, hb, hc, outRise, outFall, outCell, nextByteCnt]

/-- One input bit cell is two ticks (R106). -/
theorem inCell_ticks (s : State) (hp : s.phase = .shiftIn) (hc : s.clk = false) (hb : s.byteCnt < s.rxLen) :
    ticks 2 s =
      let b := drawAt s.chipBits s.drawCount
      let v := shiftInBit (if s.bitCnt = 7#3 then 0#8 else s.shreg) b
      { s with
        shreg := v, clk := false, byteCnt := nextByteCnt s, bitCnt := s.bitCnt - 1#3
        rxbuf := if s.bitCnt = 0#3 then s.rxbuf ++ [v] else s.rxbuf, drawCount := s.drawCount + 1
        pins := s.pins ++ inCell b } := by
  simp [ticks, tick, hp, tickShiftIn, hb, hc, inRise, inFall, inCell, nextByteCnt]

/-- The bits of a sampled byte are the bits sampled (R40, R106). -/
theorem bitsMsb_drawByte (script : List Bool) (k : Nat) : bitsMsb (drawByte script k) = drawBits script k := by
  simp [drawByte, drawBits, byteOfBits, shiftInBit, bitsMsb]

/-- Sixteen ticks send one byte (R104). -/
theorem outByte_ticks (s : State) (hp : s.phase = .shiftOut) (hc : s.clk = false)
    (hb : s.byteCnt < s.txbuf.length) (hbit : s.bitCnt = 7#3) :
    ticks 16 s =
      { s with
        shreg := 0#8, dout := (s.txbuf.getD s.byteCnt 0#8).getLsbD 0, byteCnt := s.byteCnt + 1
        pins := s.pins ++ outByte (s.txbuf.getD s.byteCnt 0#8) } := by
  obtain ⟨_, _, _, _, _, _, _, _, _, _, _, _, _, _, _, _, _, _, _, _, _, _, _, _, _, _, _, _, _, _, _⟩ := s
  simp only at hp hc hb hbit
  subst hp hc hbit
  simp [ticks, tick, tickShiftOut, hb, outRise, outFall, nextByteCnt, outByte, bitsMsb, outCell]

/-- Sixteen ticks receive one byte (R106). -/
theorem inByte_ticks (s : State) (hp : s.phase = .shiftIn) (hc : s.clk = false) (hb : s.byteCnt < s.rxLen)
    (hbit : s.bitCnt = 7#3) :
    ticks 16 s =
      { s with
        shreg := drawByte s.chipBits s.drawCount, rxbuf := s.rxbuf ++ [drawByte s.chipBits s.drawCount]
        drawCount := s.drawCount + 8, byteCnt := s.byteCnt + 1
        pins := s.pins ++ inByte (drawByte s.chipBits s.drawCount) } := by
  obtain ⟨_, _, _, _, _, _, _, _, _, _, _, _, _, _, _, _, _, _, _, _, _, _, _, _, _, _, _, _, _, _, _⟩ := s
  simp only at hp hc hb hbit
  subst hp hc hbit
  simp only [inByte, bitsMsb_drawByte]
  simp [ticks, tick, tickShiftIn, hb, inRise, inFall, nextByteCnt, drawBits, inCell, drawByte, byteOfBits]

/-- Behind BW_LOW comes BW_ACCESS for a request with an access, IDLE for any other (R172). -/
theorem afterLow_of_access {s : State} {i : Instr} {a : Access} (hq : s.req = some i)
    (ha : accessOf s.cfg i = some a) : afterLow s = .bwAccess := by
  simp [afterLow, hq, ha]

theorem afterLow_of_no_access {s : State} {i : Instr} (hq : s.req = some i) (ha : accessOf s.cfg i = none) :
    afterLow s = .idle := by
  simp [afterLow, hq, ha]

/-- The parts of the state no tick writes: the request in progress, but that completion drops it, is left out. -/
structure TickKeeps (s t : State) : Prop where
  requests : t.requests = s.requests
  resetIn : t.resetIn = s.resetIn
  chipBits : t.chipBits = s.chipBits
  cfg : t.cfg = s.cfg

theorem tick_keeps (s : State) : TickKeeps s (tick s) := by
  unfold tick
  split
  · exact ⟨rfl, rfl, rfl, rfl⟩
  · unfold tickShiftOut; split
    · split <;> exact ⟨rfl, rfl, rfl, rfl⟩
    · exact ⟨rfl, rfl, rfl, rfl⟩
  · exact ⟨rfl, rfl, rfl, rfl⟩
  · unfold tickShiftIn; split
    · split <;> exact ⟨rfl, rfl, rfl, rfl⟩
    · exact ⟨rfl, rfl, rfl, rfl⟩
  · unfold tickRelease; simp only; split <;> exact ⟨rfl, rfl, rfl, rfl⟩
  · unfold tickPwLow; split <;> exact ⟨rfl, rfl, rfl, rfl⟩
  · exact ⟨rfl, rfl, rfl, rfl⟩
  · unfold tickRegister; split
    · unfold tickEncode; split <;> exact ⟨rfl, rfl, rfl, rfl⟩
    · unfold tickStrip; simp only; split <;> exact ⟨rfl, rfl, rfl, rfl⟩
    · unfold tickWindow; simp only
      split
      · unfold tickCompare; split <;> exact ⟨rfl, rfl, rfl, rfl⟩
      · unfold tickCompare; split <;> exact ⟨rfl, rfl, rfl, rfl⟩
      · unfold tickCompare; split <;> exact ⟨rfl, rfl, rfl, rfl⟩
      · unfold tickAccess; split <;> exact ⟨rfl, rfl, rfl, rfl⟩
      · exact ⟨rfl, rfl, rfl, rfl⟩

end Sys2Proof.Machine
end

