-- ==== Sys2Proof/Tests/Slice0.lean ====
section
/-! SUPPORT. Tests: the envelope's checks, a written-out image for every request, the spec's test vectors
(95_test_vectors.md) one request at a time, and a witness for the hypotheses of every statement. -/
namespace Sys2Proof.Tests
open Machine Safety

/-! ## Helpers -/

/-- The next state, or reset. -/
def after (o : Host.Outcome State Fault Refusal) : State :=
  match o with
  | .next t => t
  | .fault _ => State.reset
  | .refused _ => State.reset

/-- The refusal, where there is one. -/
def refusal (o : Host.Outcome State Fault Refusal) : Option Refusal :=
  match o with
  | .refused r => some r
  | .next _ => none
  | .fault _ => none

/-- The reset state with a chip that supplies these bytes. -/
def supplied (bytes : List Byte) : State := { State.reset with chipBits := bytes.flatMap bitsMsb }

/-- The same with the cache at a window. -/
def cached (high med low : Byte) (bytes : List Byte) : State :=
  { supplied bytes with winHigh := high, winMed := med, winLow := low, winValid := 7#3 }

/-- The cache bytes after a request. -/
def cacheAfter (o : Host.Outcome State Fault Refusal) : Byte × Byte × Byte × BitVec 3 :=
  ((after o).winHigh, (after o).winMed, (after o).winLow, (after o).winValid)

/-- The bytes sent by the frames of a trace. -/
def sent : List FrameEvent → List (List Byte)
  | [] => []
  | .frame tx _ :: fs => tx :: sent fs
  | .power _ :: fs => sent fs

/-- The bytes of the frames of a request. -/
def out (o : Host.Outcome State Fault Refusal) : List (List Byte) := sent (after o).frames

/-! ## The envelope: an ill-formed term for each check, beside the nearest well-formed one (R203, T64, T70 to T75) -/

theorem test_wf_function :
    (Instr.rd32 2#2 0x14#32).wellFormed = false ∧ (Instr.rdn 3#2 0#1 0#32 4#32).wellFormed = false ∧
      (Instr.rd32 1#2 0x14#32).wellFormed = true := by decide

theorem test_wf_length_zero :
    (Instr.rdn 0#2 1#1 0x14#32 0#32).wellFormed = false ∧ (Instr.bprdn 0#32 0#32).wellFormed = false ∧
      (Instr.rdn 0#2 1#1 0x14#32 1#32).wellFormed = true := by decide

theorem test_wf_length_max :
    (Instr.rdn 0#2 1#1 0x14#32 1024#32).wellFormed = false ∧ (Instr.bprdn 0#32 1024#32).wellFormed = false ∧
      (Instr.rdn 0#2 1#1 0x14#32 1023#32).wellFormed = true := by decide

theorem test_wf_data :
    (Instr.wrn 0#2 1#1 0x40#32 6#32 [0x11#8, 0x22#8, 0x33#8]).wellFormed = false ∧
      (Instr.bpwrn 0#32 2#32 [1#8]).wellFormed = false ∧
      (Instr.wrn 0#2 1#1 0x40#32 3#32 [0x11#8, 0x22#8, 0x33#8]).wellFormed = true := by decide

theorem test_wf_window :
    (Instr.bprdn 0x0006FFFD#32 4#32).wellFormed = false ∧
      (Instr.bpwrn 0x00007FFF#32 2#32 [1#8, 2#8]).wellFormed = false ∧
      (Instr.bprd32 0x7FFD#32).wellFormed = false ∧ (Instr.bpwr16 0x7FFF#32 0#16).wellFormed = false ∧
      (Instr.bprdn 0x0006FFFD#32 3#32).wellFormed = true := by decide

theorem test_wf_send :
    (Instr.xfer [0x01#8] 2#32 0#32).wellFormed = false ∧ (Instr.xfer [0x01#8] 1#32 0#32).wellFormed = true := by
  decide

/-! ## Decoding: one image per request, its bytes written out from R90's pattern and the layout of log 2 -/

/-- XFER has no word (R93): selector 1, wl 1, rl 2, one byte. -/
theorem test_decode_xfer :
    decode [0x00#8, 0x00#8, 0x00#8, 0x00#8, 1#8, 1#8, 0#8, 0#8, 0#8, 2#8, 0#8, 0#8, 0#8, 0xA5#8] =
      .ok (.xfer [0xA5#8] 1#32 2#32) := by rfl

theorem test_decode_pwron :
    decode [0x00#8, 0x00#8, 0x00#8, 0x00#8, 2#8, 0#8, 0#8, 0#8, 0#8, 0#8, 0#8, 0#8, 0#8] = .ok .pwron := by rfl

theorem test_decode_pwroff :
    decode [0x00#8, 0x00#8, 0x00#8, 0x00#8, 3#8, 0#8, 0#8, 0#8, 0#8, 0#8, 0#8, 0#8, 0#8] = .ok .pwroff := by rfl

/-- 0 0 00 00000000000010100 0 0000000100 (T49c). -/
theorem test_decode_rdn : decodeTableWord 32 0x0000A004 = some (.rdn 0#2 0#1 0x14#32 4#32) := by rfl

/-- 1 0 01 00000000000000001 0 0000000010. -/
theorem test_decode_wrn : decodeTableWord 32 0x90000802 = some (.wrn 1#2 0#1 1#32 2#32 [0#8, 0#8]) := by rfl

/-- 0 1 00 00000000000000101 0 0000000001 (T44). -/
theorem test_decode_rd8 : decodeTableWord 32 0x40002801 = some (.rd8 0#2 5#32) := by rfl

/-- 0 1 00 00000000000011110 0 0000000010 (T45). -/
theorem test_decode_rd16 : decodeTableWord 32 0x4000F002 = some (.rd16 0#2 0x1E#32) := by rfl

/-- 0 1 00 00000000000010100 0 0000000100 (T40). -/
theorem test_decode_rd32 : decodeTableWord 32 0x4000A004 = some (.rd32 0#2 0x14#32) := by rfl

/-- 1 1 00 10000000000001100 0 0000000001 (T46), and its value byte. -/
theorem test_decode_wr8 :
    decode [0x01#8, 0x60#8, 0x00#8, 0xC8#8, 0#8, 0#8, 0#8, 0#8, 0#8, 0#8, 0#8, 0#8, 0#8, 0x18#8] =
      .ok (.wr8 0#2 0x1000C#32 0x18#8) := by rfl

/-- 1 1 00 00000000000011100 0 0000000010 (T47). -/
theorem test_decode_wr16 :
    decode [0x02#8, 0xE0#8, 0x00#8, 0xC0#8, 0#8, 0#8, 0#8, 0#8, 0#8, 0#8, 0#8, 0#8, 0#8, 0xEF#8, 0xBE#8] =
      .ok (.wr16 0#2 0x1C#32 0xBEEF#16) := by rfl

/-- 1 1 00 00000000000000000 0 0000000100 (T42). -/
theorem test_decode_wr32 :
    decode [0x04#8, 0x00#8, 0x00#8, 0xC0#8, 0#8, 0#8, 0#8, 0#8, 0#8, 0#8, 0#8, 0#8, 0#8, 0xB3#8, 0x04#8, 0x03#8, 0x00#8] =
      .ok (.wr32 0#2 0#32 0x000304B3#32) := by rfl

/-- The word of RD32 under the selector of RD32S (R93, T41). -/
theorem test_decode_rd32s :
    decode [0x04#8, 0xA0#8, 0x00#8, 0x40#8, 12#8, 0#8, 0#8, 0#8, 0#8, 0#8, 0#8, 0#8, 0#8] =
      .ok (.rd32s 0#2 0x14#32) := by rfl

/-- The word of WR32 under the selector of WR32S (R93, T43). -/
theorem test_decode_wr32s :
    decode [0x04#8, 0x00#8, 0x00#8, 0xC0#8, 13#8, 0#8, 0#8, 0#8, 0#8, 0#8, 0#8, 0#8, 0#8, 0xB3#8, 0x04#8, 0x03#8, 0x00#8] =
      .ok (.wr32s 0#2 0#32 0x000304B3#32) := by rfl

/-- 1 1 00 00000000000000000 0 0000000001 under the selector of SETWIN, the address in extension A. -/
theorem test_decode_setwin :
    decode [0x01#8, 0x00#8, 0x00#8, 0xC0#8, 14#8, 0x08#8, 0x34#8, 0x00#8, 0x18#8, 0#8, 0#8, 0#8, 0#8] =
      .ok (.setwin 0x18003408#32) := by rfl

/-- 0 1 01 01 111111111111101 0 0000000011 (T58), A[31:15] = 0xD in extension A. -/
theorem test_decode_bprdn :
    decode [0x03#8, 0xE8#8, 0xFF#8, 0x57#8, 15#8, 0x0D#8, 0#8, 0#8, 0#8, 0#8, 0#8, 0#8, 0#8] =
      .ok (.bprdn 0x0006FFFD#32 3#32) := by rfl

/-- 1 1 01 01 000000000010000 0 0000000101 (T59). -/
theorem test_decode_bpwrn :
    decode [0x05#8, 0x80#8, 0x00#8, 0xD4#8, 16#8, 0#8, 0#8, 0#8, 0#8, 0#8, 0#8, 0#8, 0#8, 1#8, 2#8, 3#8, 4#8, 5#8] =
      .ok (.bpwrn 0x10#32 5#32 [1#8, 2#8, 3#8, 4#8, 5#8]) := by rfl

/-- 0 1 01 01 011100000000000 0 0000000001 (T54), A[31:15] = 0x3001. -/
theorem test_decode_bprd8 :
    decode [0x01#8, 0x00#8, 0xC0#8, 0x55#8, 17#8, 0x01#8, 0x30#8, 0#8, 0#8, 0#8, 0#8, 0#8, 0#8] =
      .ok (.bprd8 0x1800B800#32) := by rfl

/-- 0 1 01 01 011010000001000 0 0000000010 (T53), A[31:15] = 0x3000. -/
theorem test_decode_bprd16 :
    decode [0x02#8, 0x40#8, 0xA0#8, 0x55#8, 18#8, 0x00#8, 0x30#8, 0#8, 0#8, 0#8, 0#8, 0#8, 0#8] =
      .ok (.bprd16 0x18003408#32) := by rfl

/-- 0 1 01 01 011010000001000 0 0000000100 (T52). -/
theorem test_decode_bprd32 :
    decode [0x04#8, 0x40#8, 0xA0#8, 0x55#8, 19#8, 0x00#8, 0x30#8, 0#8, 0#8, 0#8, 0#8, 0#8, 0#8] =
      .ok (.bprd32 0x18003408#32) := by rfl

/-- 1 1 01 01 011010000001000 0 0000000001 (T57). -/
theorem test_decode_bpwr8 :
    decode [0x01#8, 0x40#8, 0xA0#8, 0xD5#8, 20#8, 0x00#8, 0x30#8, 0#8, 0#8, 0#8, 0#8, 0#8, 0#8, 0x5A#8] =
      .ok (.bpwr8 0x18003408#32 0x5A#8) := by rfl

/-- 1 1 01 01 011010000001000 0 0000000010 (T56). -/
theorem test_decode_bpwr16 :
    decode [0x02#8, 0x40#8, 0xA0#8, 0xD5#8, 21#8, 0x00#8, 0x30#8, 0#8, 0#8, 0#8, 0#8, 0#8, 0#8, 0xEF#8, 0xBE#8] =
      .ok (.bpwr16 0x18003408#32 0xBEEF#16) := by rfl

/-- 1 1 01 01 011010000001000 0 0000000100 (T55). -/
theorem test_decode_bpwr32 :
    decode [0x04#8, 0x40#8, 0xA0#8, 0xD5#8, 22#8, 0x00#8, 0x30#8, 0#8, 0#8, 0#8, 0#8, 0#8, 0#8, 3#8, 0#8, 0#8, 0#8] =
      .ok (.bpwr32 0x18003408#32 3#32) := by rfl

/-- What the decoder rejects: a short image, selector 23, bit 10 (R72), a pattern that is not the row's, extension
bits the row does not use, a missing value byte (log 2). -/
theorem test_decode_rejects :
    decode [0#8] = .error .truncated ∧
      decode (zeros 4 ++ [23#8] ++ zeros 8) = .error .unknownSelector ∧
      decode ([0x00#8, 0x04#8, 0x00#8, 0x00#8] ++ zeros 9) = .error .noPattern ∧
      decode ([0x00#8, 0x00#8, 0x00#8, 0x80#8, 4#8] ++ zeros 8) = .error .patternMismatch ∧
      decode ([0x00#8, 0x00#8, 0x00#8, 0x00#8, 2#8, 1#8] ++ zeros 7) = .error .reservedBits ∧
      decode ([0x01#8, 0x60#8, 0x00#8, 0xC8#8] ++ zeros 9) = .error .dataLength :=
  ⟨rfl, rfl, rfl, rfl, rfl, rfl⟩

/-! ## The spec's vectors, one request each -/

/-- T60, T61: XFER [A5], 1, 1 with the chip supplying 3C, at both grains. -/
theorem test_xfer_frame_and_pins :
    (after (exec (.xfer [0xA5#8] 1#32 1#32) (supplied [0x3C#8]))).frames = [.frame [0xA5#8] [0x3C#8]] ∧
      (after (exec (.xfer [0xA5#8] 1#32 1#32) (supplied [0x3C#8]))).pins =
        [.sel false, .ddir .out,
          .dout true, .clk true, .clk false, .dout false, .clk true, .clk false,
          .dout true, .clk true, .clk false, .dout false, .clk true, .clk false,
          .dout false, .clk true, .clk false, .dout true, .clk true, .clk false,
          .dout false, .clk true, .clk false, .dout true, .clk true, .clk false,
          .ddir .in,
          .clk true, .din false, .clk false, .clk true, .din false, .clk false,
          .clk true, .din true, .clk false, .clk true, .din true, .clk false,
          .clk true, .din true, .clk false, .clk true, .din true, .clk false,
          .clk true, .din false, .clk false, .clk true, .din false, .clk false,
          .sel true] := by decide

/-- T62, T63: the empty transfer, and the third byte that is not sent. -/
theorem test_xfer_lengths :
    (after (exec (.xfer [] 0#32 0#32) State.reset)).pins = [.sel false, .ddir .out, .ddir .in, .sel true] ∧
      out (exec (.xfer [0x01#8, 0x02#8, 0x03#8] 2#32 0#32) State.reset) = [[0x01#8, 0x02#8]] ∧
      pulses (after (exec (.xfer [0x01#8, 0x02#8, 0x03#8] 2#32 0#32) State.reset)).pins = 16 := by decide

/-- T65. -/
theorem test_pwron :
    (after (exec .pwron State.reset)).frames = [.power false, .power true] ∧
      (after (exec .pwron State.reset)).delays = [20, 250] ∧ (after (exec .pwron State.reset)).pwr = true := by decide

/-- T65. -/
theorem test_pwroff :
    (after (exec .pwroff { State.reset with pwr := true })).frames = [.power false] ∧
      (after (exec .pwroff { State.reset with pwr := true })).pwr = false := by decide

/-- T49: the backplane read drops its four pad bytes. -/
theorem test_rdn :
    out (exec (.rdn 1#2 1#1 0x0B408#32 3#32) State.reset) = [[0x03#8, 0x40#8, 0xA0#8, 0x55#8]] ∧
      (after (exec (.rdn 1#2 1#1 0x0B408#32 3#32)
        (supplied [0xF0#8, 0xF1#8, 0xF2#8, 0xF3#8, 1#8, 2#8, 3#8, 4#8]))).result = .bytes [1#8, 2#8, 3#8, 4#8] := by
  decide

/-- T48, and T73's accepted neighbour. -/
theorem test_wrn :
    out (exec (.wrn 0#2 1#1 0x40#32 6#32 [0x11#8, 0x22#8, 0x33#8, 0x44#8, 0x55#8, 0x66#8]) State.reset) =
        [[0x06#8, 0x00#8, 0x02#8, 0xC0#8, 0x11#8, 0x22#8, 0x33#8, 0x44#8, 0x55#8, 0x66#8, 0x00#8, 0x00#8]] ∧
      out (exec (.wrn 0#2 1#1 0x40#32 3#32 [0x11#8, 0x22#8, 0x33#8]) State.reset) =
        [[0x03#8, 0x00#8, 0x02#8, 0xC0#8, 0x11#8, 0x22#8, 0x33#8, 0x00#8]] := by decide

/-- T44: one byte asked, four clocked in. -/
theorem test_rd8 :
    out (exec (.rd8 0#2 5#32) State.reset) = [[0x01#8, 0x28#8, 0x00#8, 0x40#8]] ∧
      (after (exec (.rd8 0#2 5#32) (supplied [0x5A#8, 0x11#8, 0x22#8, 0x33#8]))).result = .u8 0x5A#8 ∧
      (after (exec (.rd8 0#2 5#32) State.reset)).drawCount = 32 := by decide

/-- T45, with R144's bytes. -/
theorem test_rd16 :
    out (exec (.rd16 0#2 0x1E#32) State.reset) = [[0x02#8, 0xF0#8, 0x00#8, 0x40#8]] ∧
      (after (exec (.rd16 0#2 0x1E#32) (supplied [0xEF#8, 0xBE#8, 0x00#8, 0x00#8]))).result = .u16 0xBEEF#16 := by
  decide

/-- T40, T49a: no pad for function 0, four bytes of it for function 1. -/
theorem test_rd32 :
    out (exec (.rd32 0#2 0x14#32) State.reset) = [[0x04#8, 0xA0#8, 0x00#8, 0x40#8]] ∧
      (after (exec (.rd32 0#2 0x14#32) (supplied [0xAD#8, 0xBE#8, 0xED#8, 0xFE#8]))).result = .u32 0xFEEDBEAD#32 ∧
      (after (exec (.rd32 1#2 0x0B408#32)
        (supplied [9#8, 9#8, 9#8, 9#8, 0xAD#8, 0xBE#8, 0xED#8, 0xFE#8]))).result = .u32 0xFEEDBEAD#32 := by decide

/-- T46. -/
theorem test_wr8 :
    out (exec (.wr8 0#2 0x1000C#32 0x18#8) State.reset) =
      [[0x01#8, 0x60#8, 0x00#8, 0xC8#8, 0x18#8, 0x00#8, 0x00#8, 0x00#8]] := by decide

/-- T47. -/
theorem test_wr16 :
    out (exec (.wr16 0#2 0x1C#32 0xBEEF#16) State.reset) =
      [[0x02#8, 0xE0#8, 0x00#8, 0xC0#8, 0xEF#8, 0xBE#8, 0x00#8, 0x00#8]] := by decide

/-- T42, T49b. -/
theorem test_wr32 :
    out (exec (.wr32 0#2 0#32 0x000304B3#32) State.reset) =
        [[0x04#8, 0x00#8, 0x00#8, 0xC0#8, 0xB3#8, 0x04#8, 0x03#8, 0x00#8]] ∧
      out (exec (.wr32 1#2 0x0B408#32 3#32) State.reset) =
        [[0x04#8, 0x40#8, 0xA0#8, 0xD5#8, 0x03#8, 0x00#8, 0x00#8, 0x00#8]] := by decide

/-- T41, both cases, and R149's own example. -/
theorem test_rd32s :
    out (exec (.rd32s 0#2 0x14#32) State.reset) = [[0xA0#8, 0x04#8, 0x40#8, 0x00#8]] ∧
      (after (exec (.rd32s 0#2 0x14#32) (supplied [0xBE#8, 0xAD#8, 0xFE#8, 0xED#8]))).result = .u32 0xFEEDBEAD#32 ∧
      (after (exec (.rd32s 0#2 0x14#32) (supplied [0xAD#8, 0xBE#8, 0xED#8, 0xFE#8]))).result = .u32 0xEDFEADBE#32 ∧
      (after (exec (.rd32s 0#2 0x14#32) (supplied [0xED#8, 0xFE#8, 0xAD#8, 0xBE#8]))).result = .u32 0xADBEEDFE#32 := by
  decide

/-- T43. -/
theorem test_wr32s :
    out (exec (.wr32s 0#2 0#32 0x000304B3#32) State.reset) =
      [[0x00#8, 0x04#8, 0xC0#8, 0x00#8, 0x04#8, 0xB3#8, 0x00#8, 0x03#8]] := by decide

/-- T50 step 1: three writes although all bytes are zero (D10). -/
theorem test_setwin_first :
    out (exec (.setwin 0#32) State.reset) =
        [[0x01#8, 0x60#8, 0x00#8, 0xC8#8, 0x00#8, 0x00#8, 0x00#8, 0x00#8],
          [0x01#8, 0x58#8, 0x00#8, 0xC8#8, 0x00#8, 0x00#8, 0x00#8, 0x00#8],
          [0x01#8, 0x50#8, 0x00#8, 0xC8#8, 0x00#8, 0x00#8, 0x00#8, 0x00#8]] ∧
      cacheAfter (exec (.setwin 0#32) State.reset) = (0#8, 0#8, 0#8, 7#3) := by decide

/-- T50 steps 7 and 8: the low byte alone; an unchanged middle byte between two written ones. -/
theorem test_setwin_cached :
    out (exec (.setwin 0x18008000#32) (cached 0x18#8 0#8 0#8 [])) =
        [[0x01#8, 0x50#8, 0x00#8, 0xC8#8, 0x80#8, 0x00#8, 0x00#8, 0x00#8]] ∧
      out (exec (.setwin 0#32) (cached 0x18#8 0#8 0x80#8 [])) =
        [[0x01#8, 0x60#8, 0x00#8, 0xC8#8, 0x00#8, 0x00#8, 0x00#8, 0x00#8],
          [0x01#8, 0x50#8, 0x00#8, 0xC8#8, 0x00#8, 0x00#8, 0x00#8, 0x00#8]] ∧
      cacheAfter (exec (.setwin 0#32) (cached 0x18#8 0#8 0x80#8 [])) = (0#8, 0#8, 0#8, 7#3) := by decide

/-- T58. -/
theorem test_bprdn :
    out (exec (.bprdn 0x0006FFFD#32 3#32) (cached 0#8 6#8 0x80#8 [])) = [[0x03#8, 0xE8#8, 0xFF#8, 0x57#8]] ∧
      (after (exec (.bprdn 0x0006FFFD#32 3#32) (cached 0#8 6#8 0x80#8 []))).drawCount = 64 := by decide

/-- T59, T75's accepted neighbour. -/
theorem test_bpwrn :
    out (exec (.bpwrn 0x10#32 5#32 [1#8, 2#8, 3#8, 4#8, 5#8]) (cached 0#8 0#8 0#8 [])) =
        [[0x05#8, 0x80#8, 0x00#8, 0xD4#8, 1#8, 2#8, 3#8, 4#8, 5#8, 0#8, 0#8, 0#8]] ∧
      out (exec (.bpwrn 0x7FFF#32 1#32 [1#8]) (cached 0#8 0#8 0#8 [])) =
        [[0x01#8, 0xF8#8, 0xFF#8, 0xD7#8, 1#8, 0#8, 0#8, 0#8]] := by decide

/-- T54. -/
theorem test_bprd8 :
    out (exec (.bprd8 0x1800B800#32) (cached 0x18#8 0#8 0x80#8 [])) = [[0x01#8, 0x00#8, 0xC0#8, 0x55#8]] ∧
      (after (exec (.bprd8 0x1800B800#32)
        (cached 0x18#8 0#8 0x80#8 [9#8, 9#8, 9#8, 9#8, 0x7E#8, 1#8, 2#8, 3#8]))).result = .u8 0x7E#8 := by decide

/-- T53. -/
theorem test_bprd16 :
    out (exec (.bprd16 0x18003408#32) (cached 0x18#8 0#8 0#8 [])) = [[0x02#8, 0x40#8, 0xA0#8, 0x55#8]] ∧
      (after (exec (.bprd16 0x18003408#32)
        (cached 0x18#8 0#8 0#8 [9#8, 9#8, 9#8, 9#8, 0xEF#8, 0xBE#8, 2#8, 3#8]))).result = .u16 0xBEEF#16 := by decide

/-- T52. -/
theorem test_bprd32 :
    out (exec (.bprd32 0x18003408#32) (cached 0x18#8 0#8 0#8 [])) = [[0x04#8, 0x40#8, 0xA0#8, 0x55#8]] ∧
      (after (exec (.bprd32 0x18003408#32)
        (cached 0x18#8 0#8 0#8 [9#8, 9#8, 9#8, 9#8, 3#8, 0#8, 0#8, 0#8]))).result = .u32 3#32 := by decide

/-- T57. -/
theorem test_bpwr8 :
    out (exec (.bpwr8 0x18003408#32 0x5A#8) (cached 0x18#8 0#8 0#8 [])) =
      [[0x01#8, 0x40#8, 0xA0#8, 0xD5#8, 0x5A#8, 0x00#8, 0x00#8, 0x00#8]] := by decide

/-- T56. -/
theorem test_bpwr16 :
    out (exec (.bpwr16 0x18003408#32 0xBEEF#16) (cached 0x18#8 0#8 0#8 [])) =
      [[0x02#8, 0x40#8, 0xA0#8, 0xD5#8, 0xEF#8, 0xBE#8, 0x00#8, 0x00#8]] := by decide

/-- T55 and P2 step 1: the window writes come first. -/
theorem test_bpwr32 :
    out (exec (.bpwr32 0x18003408#32 3#32) (cached 0x18#8 0#8 0#8 [])) =
        [[0x04#8, 0x40#8, 0xA0#8, 0xD5#8, 0x03#8, 0x00#8, 0x00#8, 0x00#8]] ∧
      out (exec (.bpwr32 0x18003408#32 3#32) State.reset) =
        [[0x01#8, 0x60#8, 0x00#8, 0xC8#8, 0x18#8, 0x00#8, 0x00#8, 0x00#8],
          [0x01#8, 0x58#8, 0x00#8, 0xC8#8, 0x00#8, 0x00#8, 0x00#8, 0x00#8],
          [0x01#8, 0x50#8, 0x00#8, 0xC8#8, 0x00#8, 0x00#8, 0x00#8, 0x00#8],
          [0x04#8, 0x40#8, 0xA0#8, 0xD5#8, 0x03#8, 0x00#8, 0x00#8, 0x00#8]] := by decide

/-- T64, T70 to T75. -/
theorem test_refusals :
    refusal (exec (.xfer [0x01#8] 2#32 0#32) State.reset) = some .sendTooLong ∧
      refusal (exec (.rdn 0#2 1#1 0x14#32 0#32) State.reset) = some .zeroLength ∧
      refusal (exec (.rdn 0#2 1#1 0x14#32 1024#32) State.reset) = some .lengthTooLong ∧
      refusal (exec (.rd32 2#2 0x14#32) State.reset) = some .reservedFunction ∧
      refusal (exec (.wrn 0#2 1#1 0x40#32 6#32 [0x11#8, 0x22#8, 0x33#8]) State.reset) = some .dataTooShort ∧
      refusal (exec (.bprdn 0x0006FFFD#32 4#32) State.reset) = some .windowCrossing ∧
      refusal (exec (.bpwrn 0x00007FFF#32 2#32 [1#8, 2#8]) State.reset) = some .windowCrossing ∧
      refusal (exec .pwron (setBusy State.reset)) = some .busy := by decide

/-- A table word placed at the request port is what the next step performs (log 17). -/
theorem test_withFetchWord :
    out (step (State.reset.withFetchWord 32 0x4000A004)) = [[0x04#8, 0xA0#8, 0x00#8, 0x40#8]] ∧
      (after (step (State.reset.withFetchWord 32 0x4000A004))).requests = [] := by decide

/-- R210: a reset while select is asserted releases it and drops the power line. -/
theorem test_blockReset :
    (after (step { State.reset with resetIn := true, busy := true, sel := false, pwr := true, winValid := 7#3 })).pins =
        [.sel true, .power false] ∧
      (after (step { State.reset with resetIn := true, winValid := 7#3 })).winValid = 0#3 := by decide

/-- R103 to R106 by ticks: the empty transfer, one phase a tick. -/
theorem test_ticks_empty :
    (ticks 6 (accept (.xfer [] 0#32 0#32) State.reset)).pins = [.sel false, .ddir .out, .ddir .in, .sel true] ∧
      (ticks 6 (accept (.xfer [] 0#32 0#32) State.reset)).busy = false := by decide

/-- R172: SETWIN of the cached window compares three bytes and stops after BW_LOW; a windowed access goes on to
BW_ACCESS. -/
theorem test_window_phases :
    (ticks 3 (accept (.setwin 0#32) (cached 0#8 0#8 0#8 []))).bwPhase = .idle ∧
      (ticks 4 (accept (.setwin 0#32) (cached 0#8 0#8 0#8 []))).busy = false ∧
      (ticks 3 (accept (.bprd8 0#32) (cached 0#8 0#8 0#8 []))).bwPhase = .bwAccess := by decide

/-- R224: the same SETWIN with the power line low sends its frame, fills the cache and reaches no register; with it high
the register holds the byte. -/
theorem test_unpowered :
    out (exec (.setwin 0x18000000#32) State.reset) =
        out (exec (.setwin 0x18000000#32) { State.reset with pwr := true }) ∧
      chipWindow defaultParams (after (exec (.setwin 0x18000000#32) State.reset)).frames = ChipWindow.unknown false ∧
      (chipWindow defaultParams
        (after (exec (.setwin 0x18000000#32) (after (exec .pwron State.reset)))).frames).high = some 0x18#8 := by
  decide

/-! ## Witnesses: for each statement with hypotheses, a state and operands that meet them together -/

/-- Reset with the window cache at window 0. -/
def warm : State := cached 0#8 0#8 0#8 []

/-- Power on, then the chip's window registers written, as the frames tell. -/
def known : State := after (exec (.setwin 0#32) (after (exec .pwron State.reset)))

/-- An idle block with one image waiting. -/
def waiting (img : List Byte) : State := { State.reset with requests := [img] }

/-- AcceptedImagesAreCanonical: selectors 1 and 22, the ends of their range. -/
theorem witness_canonical :
    ([0x00#8, 0x00#8, 0x00#8, 0x00#8, 1#8] ++ zeros 8).getD 4 0#8 ≠ 0#8 ∧
      decode ([0x00#8, 0x00#8, 0x00#8, 0x00#8, 1#8] ++ zeros 8) = .ok (.xfer [] 0#32 0#32) ∧
      ([0x04#8, 0x00#8, 0x00#8, 0xD4#8, 22#8] ++ zeros 12).getD 4 0#8 ≠ 0#8 ∧
      decode ([0x04#8, 0x00#8, 0x00#8, 0xD4#8, 22#8] ++ zeros 12) = .ok (.bpwr32 0#32 0#32) :=
  ⟨by decide, rfl, by decide, rfl⟩

/-- StepRunsTheDecodedRequest: each of its three clauses. -/
theorem witness_step :
    ((waiting (tableImage 0x4000A004)).resetIn = false ∧ (waiting (tableImage 0x4000A004)).busy = false ∧
        (waiting (tableImage 0x4000A004)).requests = [tableImage 0x4000A004] ∧
        decode (tableImage 0x4000A004) = .ok (.rd32 0#2 0x14#32)) ∧
      ((waiting []).resetIn = false ∧ (waiting []).busy = false ∧ (waiting []).requests = [[]] ∧
        decode [] = .error .truncated) ∧
      (State.reset.resetIn = false ∧ State.reset.busy = false ∧ State.reset.requests = []) :=
  ⟨⟨rfl, rfl, rfl, rfl⟩, ⟨rfl, rfl, rfl, rfl⟩, rfl, rfl, rfl⟩

/-- BusyBlockLetsRequestsWait, BusyBlockRunsToCompletion: a block with a request in progress. -/
theorem witness_busy :
    (accept (.rd32 0#2 0x14#32) State.reset).busy = true ∧ (accept (.rd32 0#2 0x14#32) State.reset).resetIn = false :=
  ⟨rfl, rfl⟩

/-- BlockResetOverridesEverything: a reset in the middle of a request. -/
theorem witness_reset :
    ({ accept (.rd32 0#2 0x14#32) State.reset with resetIn := true } : State).resetIn = true := rfl

/-- OnlyResetInvalidatesTheCache, StepsOnlyAppendToTheTraces: an idle block with a valid cache steps. -/
theorem witness_cache_step :
    warm.resetIn = false ∧ step warm = .next warm ∧ warm.winValid.getLsbD 0 = true ∧
      warm.winValid.getLsbD 2 = true := ⟨rfl, rfl, rfl, rfl⟩

/-- The statements over exec i s = next t (OnlyPowerRequestsMoveThePowerLine, PinsCarryTheFrames,
ClockPulsesCountTheBytes, ReceivedDataSteersNothing): requests of each family complete. -/
theorem witness_exec_next :
    exec (.setwin 0#32) State.reset = .next (after (exec (.setwin 0#32) State.reset)) ∧
      exec (.rd32 0#2 0x14#32) State.reset = .next (after (exec (.rd32 0#2 0x14#32) State.reset)) ∧
      exec (.xfer [] 0#32 0#32) State.reset = .next (after (exec (.xfer [] 0#32 0#32) State.reset)) ∧
      Instr.setwin 0#32 ≠ .pwron ∧ Instr.setwin 0#32 ≠ .pwroff :=
  ⟨rfl, rfl, rfl, by decide, by decide⟩

/-- TransferMovesOneFrame: nothing sent and nothing received; all of tx and the longest read. -/
theorem witness_transfer :
    State.reset.busy = false ∧ (0#32).toNat ≤ ([] : List Byte).length ∧ (0#32).toNat ≤ State.reset.cfg.xferMax ∧
      (2#32).toNat ≤ [1#8, 2#8].length ∧ (0xFFFFFFFF#32).toNat ≤ State.reset.cfg.xferMax := by decide

/-- PowerOnCyclesThePowerLine, PowerOffDropsThePowerLine, SetWindowWritesWhatDiffers, WindowCachingProperty,
RefusalsNameTheBrokenBound (its outer hypothesis): a free block. -/
theorem witness_free : State.reset.busy = false ∧ warm.busy = false := ⟨rfl, rfl⟩

/-- SetWindowWritesWhatDiffers: an address with nothing to write, and one with something. -/
theorem witness_setWindow :
    warm.busy = false ∧ windowWrites warm.cfg (lastEmitted warm) [0#32] = [] ∧
      windowWrites warm.cfg (lastEmitted warm) [0x8000#32] ≠ [] := by decide

/-- PowerRequestsTouchNothingElse: both requests complete. -/
theorem witness_power :
    exec .pwron State.reset = .next (after (exec .pwron State.reset)) ∧
      exec .pwroff State.reset = .next (after (exec .pwroff State.reset)) := ⟨rfl, rfl⟩

/-- RegisterReadDropsThePad, RegisterWritePadsWithZeros, and the helpers' statements: both functions, both ends of the
length. -/
theorem witness_register :
    State.reset.busy = false ∧ ((0#2 : BitVec 2) = 0#2 ∨ (0#2 : BitVec 2) = 1#2) ∧
      ((1#2 : BitVec 2) = 0#2 ∨ (1#2 : BitVec 2) = 1#2) ∧ 1 ≤ (1#32).toNat ∧ (1#32).toNat ≤ 1023 ∧
      1 ≤ (1023#32).toNat ∧ (1023#32).toNat ≤ 1023 ∧ (1#32).toNat ≤ [0#8].length ∧
      (1023#32).toNat ≤ (zeros 1023).length :=
  ⟨rfl, by decide, by decide, by decide, by decide, by decide, by decide, by decide, by simp⟩

/-- WindowedReadsSetTheWindowFirst, WindowedWritesSetTheWindowFirst, WindowedAccessIsSetWindowThenAccess: for each
length, the last offset that still fits its window. -/
theorem witness_windowed :
    State.reset.busy = false ∧ (0x7C01#32).toNat % 0x8000 + (1023#32).toNat ≤ 0x8000 ∧
      (0x7FFF#32).toNat % 0x8000 + (1#32).toNat ≤ 0x8000 ∧ (0x7FFF#32).toNat % 0x8000 + 1 ≤ 0x8000 ∧
      (0x7FFE#32).toNat % 0x8000 + 2 ≤ 0x8000 ∧ (0x7FFC#32).toNat % 0x8000 + 4 ≤ 0x8000 ∧
      (0xFFFFFFFC#32).toNat % 0x8000 + 4 ≤ 0x8000 := by decide

/-- RefusalsNameTheBrokenBound: each clause at its boundary. -/
theorem witness_refusals :
    ((2#2 : BitVec 2) ≠ 0#2 ∧ (2#2 : BitVec 2) ≠ 1#2) ∧ 1023 < (1024#32).toNat ∧
      (1 ≤ (1#32).toNat ∧ (1#32).toNat ≤ 1023 ∧ ([] : List Byte).length < (1#32).toNat) ∧
      (1 ≤ (1023#32).toNat ∧ (1023#32).toNat ≤ 1023 ∧ 0x8000 < (0x7C02#32).toNat % 0x8000 + (1023#32).toNat) ∧
      ((0x7C01#32).toNat % 0x8000 + (1023#32).toNat ≤ 0x8000 ∧ ([] : List Byte).length < (1023#32).toNat) ∧
      0x8000 < (0x7FFF#32).toNat % 0x8000 + 2 ∧ 0x8000 < (0x7FFD#32).toNat % 0x8000 + 4 ∧
      ((0#32).toNat ≤ ([] : List Byte).length ∧
        ({ State.reset with cfg := { defaultParams with xferMax := 0 } } : State).cfg.xferMax < (1#32).toNat) := by
  decide

/-- The cached state satisfies the invariant of the latches. -/
theorem warm_inv : LatchInv warm := by
  refine ⟨rfl, by decide, by decide, fun h => ?_, fun _ => ?_, .inl rfl⟩
  · exact absurd h (by decide)
  · exact ⟨rfl, rfl, rfl, rfl, rfl, rfl, rfl, rfl⟩

/-- StepsKeepTheLatchInvariant, SmallStepsKeepTheLatchInvariant, TicksRefineTheRequest: the invariant holds and a step
is answered, with and without a request. -/
theorem witness_latches :
    LatchInv warm ∧ step warm = .next warm ∧ smallStep warm = .next warm ∧
      exec (.bprd32 0x10#32) warm = .next (after (exec (.bprd32 0x10#32) warm)) :=
  ⟨warm_inv, rfl, rfl, rfl⟩

/-- OnlyWindowedAccessesReachBwAccess: a request outside the window family, and a windowed access at the end of its
window. -/
theorem witness_bwAccess :
    LatchInv warm ∧ warm.busy = false ∧ windowOf (.rd32 0#2 0x14#32) = none ∧ windowOf (.bprd32 0x7FFC#32) = some 0x7FFC#32 ∧ Instr.bprd32 0x7FFC#32 ≠ .setwin 0x7FFC#32 ∧
      exec (.bprd32 0x7FFC#32) warm = .next (after (exec (.bprd32 0x7FFC#32) warm)) :=
  ⟨warm_inv, rfl, rfl, rfl, by decide, rfl⟩

/-- TransferReachesRelease: a transfer just started. -/
theorem witness_select :
    (startXfer [0xA5#8] 1 State.reset).phase = .select ∧ (startXfer [0xA5#8] 1 State.reset).clk = false := ⟨rfl, rfl⟩

/-- SameWindowEmitsNothing: the two ends of one window. -/
theorem witness_sameWindow :
    exec (.setwin 0x18000000#32) State.reset = .next (after (exec (.setwin 0x18000000#32) State.reset)) ∧
      (0x18000000#32).extractLsb' 15 17 = (0x18007FFF#32).extractLsb' 15 17 := ⟨rfl, by decide⟩

/-- After PWRON and SETWIN the cache is valid and right. -/
theorem known_coherent : Coherent known := by
  refine ⟨fun _ => ?_, fun _ => ?_, fun _ => ?_⟩ <;> decide

/-- WindowRequestsSelectTheWindow, ReadsKeepTheCacheRight, StepsKeepThePowerTrace: valid parameters, a right cache, the
chip powered, and requests that complete. -/
theorem witness_coherent :
    windowOf (.bpwr8 0x8000#32 1#8) = some 0x8000#32 ∧ ParamsValid known.cfg ∧ Coherent known ∧ known.pwr = true ∧
      PowerTraced known ∧ exec (.bpwr8 0x8000#32 1#8) known = .next (after (exec (.bpwr8 0x8000#32 1#8) known)) ∧
      exec (.rd8 0#2 0x14#32) known = .next (after (exec (.rd8 0#2 0x14#32) known)) ∧
      step known = .next known ∧ smallStep known = .next known :=
  ⟨rfl, ⟨by decide, by decide, by decide, .inl rfl⟩, known_coherent, rfl, rfl, rfl, rfl, rfl, rfl⟩

/-- UnpoweredWritesGoNowhere, PowerLineGatesNothing: the chip off, and a window request that completes. -/
theorem witness_unpowered :
    warm.pwr = false ∧ PowerTraced warm ∧ Instr.setwin 0x8000#32 ≠ .pwron ∧ Instr.setwin 0x8000#32 ≠ .pwroff ∧
      exec (.setwin 0x8000#32) warm = .next (after (exec (.setwin 0x8000#32) warm)) ∧
      windowOf (.setwin 0x8000#32) = some 0x8000#32 :=
  ⟨rfl, rfl, by decide, by decide, rfl, rfl⟩

/-- PowerCycleLeavesAStaleCache: a cached window, PWRON, and the last word of the window. -/
theorem witness_powerCycle :
    CacheIs warm 0x7FFC#32 ∧ exec .pwron warm = .next (after (exec .pwron warm)) ∧
      (0x7FFC#32).toNat % 0x8000 + 4 ≤ 0x8000 :=
  ⟨⟨rfl, by decide, by decide, rfl⟩, rfl, by decide⟩

end Sys2Proof.Tests
end

/-! What is only ever appended to (R6, R9, R58): each operation and each tick lengthens the traces at their ends, and
leaves the parameters, the chip's script and the requester's queue alone. -/
namespace Sys2Proof.Machine

/-! ## The observation only grows -/

/-- From s to t the sample count does not fall and the three traces grow only at their ends. -/
structure TracesGrow (s t : State) : Prop where
  drawCount : s.drawCount ≤ t.drawCount
  frames : s.frames <+: t.frames
  pins : s.pins <+: t.pins
  delays : s.delays <+: t.delays

theorem TracesGrow.refl (s : State) : TracesGrow s s :=
  ⟨le_rfl, List.prefix_rfl, List.prefix_rfl, List.prefix_rfl⟩

theorem TracesGrow.trans {s t u : State} (h : TracesGrow s t) (k : TracesGrow t u) : TracesGrow s u :=
  ⟨h.drawCount.trans k.drawCount, h.frames.trans k.frames, h.pins.trans k.pins, h.delays.trans k.delays⟩

/-- An update of the latches alone: nothing is observed. -/
theorem TracesGrow.of_same {s t : State} (hn : t.drawCount = s.drawCount) (hf : t.frames = s.frames)
    (hp : t.pins = s.pins) (hd : t.delays = s.delays) : TracesGrow s t :=
  ⟨hn.ge, hf ▸ List.prefix_rfl, hp ▸ List.prefix_rfl, hd ▸ List.prefix_rfl⟩

/-- An update that moves pins and samples nothing. -/
theorem TracesGrow.of_pins {s t : State} (ps : List PinEvent) (hn : t.drawCount = s.drawCount)
    (hf : t.frames = s.frames) (hp : t.pins = s.pins ++ ps) (hd : t.delays = s.delays) : TracesGrow s t :=
  ⟨hn.ge, hf ▸ List.prefix_rfl, hp ▸ List.prefix_append _ _, hd ▸ List.prefix_rfl⟩

/-- As TracesGrow, and the parameters, the chip's script and the requester's queue are as they were. -/
structure OnlyAppends (s t : State) : Prop extends TracesGrow s t where
  cfg : t.cfg = s.cfg
  chipBits : t.chipBits = s.chipBits
  requests : t.requests = s.requests

theorem OnlyAppends.refl (s : State) : OnlyAppends s s := ⟨.refl s, rfl, rfl, rfl⟩

theorem OnlyAppends.trans {s t u : State} (h : OnlyAppends s t) (k : OnlyAppends t u) : OnlyAppends s u :=
  ⟨h.toTracesGrow.trans k.toTracesGrow, k.cfg.trans h.cfg, k.chipBits.trans h.chipBits,
    k.requests.trans h.requests⟩

/-! ## The operations of the big step -/

theorem setBusy_onlyAppends (s : State) : OnlyAppends s (setBusy s) :=
  ⟨.of_same rfl rfl rfl rfl, rfl, rfl, rfl⟩

theorem complete_onlyAppends (r : Result) (s : State) : OnlyAppends s (complete r s) :=
  ⟨.of_same rfl rfl rfl rfl, rfl, rfl, rfl⟩

theorem cacheHigh_onlyAppends (v : Byte) (s : State) : OnlyAppends s (cacheHigh v s) :=
  ⟨.of_same rfl rfl rfl rfl, rfl, rfl, rfl⟩

theorem cacheMed_onlyAppends (v : Byte) (s : State) : OnlyAppends s (cacheMed v s) :=
  ⟨.of_same rfl rfl rfl rfl, rfl, rfl, rfl⟩

theorem cacheLow_onlyAppends (v : Byte) (s : State) : OnlyAppends s (cacheLow v s) :=
  ⟨.of_same rfl rfl rfl rfl, rfl, rfl, rfl⟩

theorem xfer_onlyAppends (tx : List Byte) (rl : Nat) (s : State) : OnlyAppends s (xfer tx rl s) :=
  ⟨⟨Nat.le_add_right _ _, List.prefix_append _ _, List.prefix_append _ _, List.prefix_rfl⟩, rfl, rfl, rfl⟩

theorem regAccess_onlyAppends (a : Access) (s : State) : OnlyAppends s (regAccess a s) :=
  ⟨⟨Nat.le_add_right _ _, List.prefix_append _ _, List.prefix_append _ _, List.prefix_rfl⟩, rfl, rfl, rfl⟩

theorem setPower_onlyAppends (level : Bool) (s : State) : OnlyAppends s (setPower level s) :=
  ⟨⟨le_rfl, List.prefix_append _ _, List.prefix_append _ _, List.prefix_rfl⟩, rfl, rfl, rfl⟩

theorem waitAtLeast_onlyAppends (ms : Nat) (s : State) : OnlyAppends s (waitAtLeast ms s) :=
  ⟨⟨le_rfl, List.prefix_rfl, List.prefix_rfl, List.prefix_append _ _⟩, rfl, rfl, rfl⟩

theorem winStepHigh_onlyAppends (a : Word) (s : State) : OnlyAppends s (winStepHigh a s) := by
  rcases winStepHigh_cases a s with ⟨_, h⟩ | ⟨_, h⟩ <;> rw [h]
  · exact .refl s
  · exact (regAccess_onlyAppends _ s).trans (cacheHigh_onlyAppends _ _)

theorem winStepMed_onlyAppends (a : Word) (s : State) : OnlyAppends s (winStepMed a s) := by
  rcases winStepMed_cases a s with ⟨_, h⟩ | ⟨_, h⟩ <;> rw [h]
  · exact .refl s
  · exact (regAccess_onlyAppends _ s).trans (cacheMed_onlyAppends _ _)

theorem winStepLow_onlyAppends (a : Word) (s : State) : OnlyAppends s (winStepLow a s) := by
  rcases winStepLow_cases a s with ⟨_, h⟩ | ⟨_, h⟩ <;> rw [h]
  · exact .refl s
  · exact (regAccess_onlyAppends _ s).trans (cacheLow_onlyAppends _ _)

theorem setWindow_onlyAppends (a : Word) (s : State) : OnlyAppends s (setWindow a s) :=
  (winStepHigh_onlyAppends a s).trans ((winStepMed_onlyAppends a _).trans (winStepLow_onlyAppends a _))

theorem bodyOf_onlyAppends (cfg : Params) (i : Instr) (s : State) : OnlyAppends s (bodyOf cfg i s) := by
  unfold bodyOf
  split
  · exact xfer_onlyAppends _ _ s
  · exact (setPower_onlyAppends false s).trans <| (waitAtLeast_onlyAppends _ _).trans <|
      (setPower_onlyAppends true _).trans (waitAtLeast_onlyAppends _ _)
  · exact setPower_onlyAppends false s
  · exact setWindow_onlyAppends _ s
  · split
    · exact (setWindow_onlyAppends _ s).trans (regAccess_onlyAppends _ _)
    · exact regAccess_onlyAppends _ s
    · exact .refl s

/-- A request that completes takes nothing more from the queue and rewrites nothing observed (R9, R58). -/
theorem exec_onlyAppends {i : Instr} {s t : State} (h : exec i s = .next t) : OnlyAppends s t := by
  obtain ⟨-, -, rfl⟩ := exec_next h
  exact (setBusy_onlyAppends s).trans ((bodyOf_onlyAppends _ i _).trans (complete_onlyAppends _ _))

/-- Block reset cuts a frame by adding events, and leaves what is not the block's (R210). -/
theorem blockReset_onlyAppends (s : State) : OnlyAppends s (blockReset s) :=
  ⟨⟨le_rfl, List.prefix_append _ _, (List.prefix_append _ _).trans (List.prefix_append _ _), List.prefix_rfl⟩,
    rfl, rfl, rfl⟩

/-! ## The ticks -/

theorem tickShiftOut_tracesGrow (s : State) : TracesGrow s (tickShiftOut s) := by
  unfold tickShiftOut
  split
  · split
    · exact .of_pins _ rfl rfl rfl rfl
    · exact .of_pins _ rfl rfl rfl rfl
  · exact .of_same rfl rfl rfl rfl

theorem inFall_tracesGrow (s : State) : TracesGrow s (inFall s) :=
  ⟨Nat.le_succ _, List.prefix_rfl, List.prefix_append _ _, List.prefix_rfl⟩

theorem tickShiftIn_tracesGrow (s : State) : TracesGrow s (tickShiftIn s) := by
  unfold tickShiftIn
  split
  · split
    · exact inFall_tracesGrow s
    · exact .of_pins _ rfl rfl rfl rfl
  · exact .of_same rfl rfl rfl rfl

theorem tickRelease_tracesGrow (s : State) : TracesGrow s (tickRelease s) := by
  unfold tickRelease
  dsimp only
  split
  · exact ⟨le_rfl, List.prefix_append _ _, List.prefix_append _ _, List.prefix_rfl⟩
  · exact ⟨le_rfl, List.prefix_append _ _, List.prefix_append _ _, List.prefix_rfl⟩

theorem tickPwLow_tracesGrow (s : State) : TracesGrow s (tickPwLow s) := by
  unfold tickPwLow
  split
  · exact ⟨le_rfl, List.prefix_append _ _, List.prefix_append _ _, List.prefix_append _ _⟩
  · exact ⟨le_rfl, List.prefix_append _ _, List.prefix_append _ _, List.prefix_rfl⟩

theorem tickPwSettle_tracesGrow (s : State) : TracesGrow s (tickPwSettle s) :=
  ⟨le_rfl, List.prefix_append _ _, List.prefix_append _ _, List.prefix_append _ _⟩

theorem tickEncode_tracesGrow (s : State) : TracesGrow s (tickEncode s) := by
  unfold tickEncode
  split <;> exact .of_same rfl rfl rfl rfl

theorem tickStrip_tracesGrow (s : State) : TracesGrow s (tickStrip s) := by
  unfold tickStrip
  dsimp only
  split <;> exact .of_same rfl rfl rfl rfl

theorem tickCompare_tracesGrow (diff : Bool) (reg : BitVec 17) (v : Byte) (next : Phase) (s : State) :
    TracesGrow s (tickCompare diff reg v next s) := by
  unfold tickCompare
  split <;> exact .of_same rfl rfl rfl rfl

theorem tickAccess_tracesGrow (s : State) : TracesGrow s (tickAccess s) := by
  unfold tickAccess
  split <;> exact .of_same rfl rfl rfl rfl

theorem tickWindow_tracesGrow (s : State) : TracesGrow s (tickWindow s) := by
  unfold tickWindow
  dsimp only
  split
  · exact tickCompare_tracesGrow _ _ _ _ s
  · exact tickCompare_tracesGrow _ _ _ _ s
  · exact tickCompare_tracesGrow _ _ _ _ s
  · exact tickAccess_tracesGrow s
  · exact (complete_onlyAppends _ s).toTracesGrow

theorem tickRegister_tracesGrow (s : State) : TracesGrow s (tickRegister s) := by
  unfold tickRegister
  split
  · exact tickEncode_tracesGrow s
  · exact tickStrip_tracesGrow s
  · exact tickWindow_tracesGrow s

theorem tick_tracesGrow (s : State) : TracesGrow s (tick s) := by
  unfold tick
  split
  · exact .of_pins _ rfl rfl rfl rfl
  · exact tickShiftOut_tracesGrow s
  · exact .of_pins _ rfl rfl rfl rfl
  · exact tickShiftIn_tracesGrow s
  · exact tickRelease_tracesGrow s
  · exact tickPwLow_tracesGrow s
  · exact tickPwSettle_tracesGrow s
  · exact tickRegister_tracesGrow s

/-- A tick rewrites nothing observed, and a waiting request waits on (R9, R193). -/
theorem tick_onlyAppends (s : State) : OnlyAppends s (tick s) :=
  have h := tick_keeps s
  ⟨tick_tracesGrow s, h.cfg, h.chipBits, h.requests⟩

/-! ## The step -/

/-- A step only appends, counted from the state whose queue it found or, for an idle block that takes a request, from
that state with the head of the queue taken (R58). -/
theorem step_onlyAppends {s t : State} (h : step s = .next t) :
    OnlyAppends s t ∨
      ∃ img rest, s.busy = false ∧ s.resetIn = false ∧ s.requests = img :: rest ∧
        OnlyAppends { s with requests := rest } t := by
  obtain ⟨-, rfl⟩ | ⟨-, -, rfl⟩ | ⟨-, -, -, rfl⟩ | ⟨i, img, rest, hr, hb, hq, -, he⟩ := step_next h
  · exact .inl (blockReset_onlyAppends s)
  · exact .inl (tick_onlyAppends s)
  · exact .inl (.refl _)
  · exact .inr ⟨img, rest, hb, hr, hq, exec_onlyAppends he⟩

/-- Settles O48, from what the four cases of a step append. -/
theorem stepsOnlyAppendToTheTraces : Obligations.StepsOnlyAppendToTheTraces := by
  intro s t h
  rcases step_onlyAppends h with k | ⟨img, rest, hb, hr, hq, k⟩
  · exact ⟨k.cfg, k.chipBits, k.drawCount, k.frames, k.pins, k.delays, .inl k.requests⟩
  · have taken : s.requests = img :: t.requests := by rw [hq, k.requests]
    exact ⟨k.cfg, k.chipBits, k.drawCount, k.frames, k.pins, k.delays, .inr ⟨hb, hr, img, taken⟩⟩

end Sys2Proof.Machine

/-! The invariant of the latches (R14 to R16, R21, R103 to R106): a request is a sequence of named operations, a tick of
the outer sequencers moves no wire, and each of them keeps the invariant. -/
namespace Sys2Proof.Machine
open Safety

/-! ## What a request is made of -/

/-- P is kept by every operation of a request but the two of the power family. -/
structure KeptByFrames (P : State → Prop) : Prop where
  setBusy : ∀ s, P s → P (setBusy s)
  complete : ∀ r s, P s → P (complete r s)
  xfer : ∀ tx rl s, P s → P (xfer tx rl s)
  regAccess : ∀ a s, P s → P (regAccess a s)
  cacheHigh : ∀ a s, P s → P (cacheHigh (highByte a) s)
  cacheMed : ∀ a s, P s → P (cacheMed (medByte a) s)
  cacheLow : ∀ a s, P s → P (cacheLow (lowByte a) s)

/-- P is kept by every operation of a request. -/
structure KeptByOperations (P : State → Prop) : Prop extends KeptByFrames P where
  setPower : ∀ l s, P s → P (setPower l s)
  waitAtLeast : ∀ ms s, P s → P (waitAtLeast ms s)

section
variable {P : State → Prop} {cfg : Params} {i : Instr} {s t : State}

theorem KeptByFrames.winStepHigh (h : KeptByFrames P) (a : Word) (hs : P s) : P (winStepHigh a s) := by
  rcases winStepHigh_cases a s with ⟨_, e⟩ | ⟨_, e⟩ <;> rw [e]
  · exact hs
  · exact h.cacheHigh _ _ (h.regAccess _ _ hs)

theorem KeptByFrames.winStepMed (h : KeptByFrames P) (a : Word) (hs : P s) : P (winStepMed a s) := by
  rcases winStepMed_cases a s with ⟨_, e⟩ | ⟨_, e⟩ <;> rw [e]
  · exact hs
  · exact h.cacheMed _ _ (h.regAccess _ _ hs)

theorem KeptByFrames.winStepLow (h : KeptByFrames P) (a : Word) (hs : P s) : P (winStepLow a s) := by
  rcases winStepLow_cases a s with ⟨_, e⟩ | ⟨_, e⟩ <;> rw [e]
  · exact hs
  · exact h.cacheLow _ _ (h.regAccess _ _ hs)

theorem KeptByFrames.setWindow (h : KeptByFrames P) (a : Word) (hs : P s) : P (setWindow a s) :=
  h.winStepLow a (h.winStepMed a (h.winStepHigh a hs))

theorem KeptByFrames.bodyOf (h : KeptByFrames P) (hon : i ≠ .pwron) (hoff : i ≠ .pwroff) (hs : P s) :
    P (bodyOf cfg i s) := by
  unfold Machine.bodyOf
  split
  · exact h.xfer _ _ _ hs
  · exact absurd rfl hon
  · exact absurd rfl hoff
  · exact h.setWindow _ hs
  · split
    · exact h.regAccess _ _ (h.setWindow _ hs)
    · exact h.regAccess _ _ hs
    · exact hs

theorem KeptByOperations.bodyOf (h : KeptByOperations P) (hs : P s) : P (bodyOf cfg i s) := by
  by_cases hon : i = .pwron
  · subst hon
    exact h.waitAtLeast _ _ (h.setPower _ _ (h.waitAtLeast _ _ (h.setPower _ _ hs)))
  by_cases hoff : i = .pwroff
  · subst hoff
    exact h.setPower _ _ hs
  exact h.toKeptByFrames.bodyOf hon hoff hs

/-- What the operations keep, a request that completes keeps. -/
theorem KeptByFrames.exec (h : KeptByFrames P) (hon : i ≠ .pwron) (hoff : i ≠ .pwroff) (hs : P s)
    (he : exec i s = .next t) : P t := by
  obtain ⟨-, -, rfl⟩ := exec_next he
  exact h.complete _ _ (h.bodyOf hon hoff (h.setBusy _ hs))

theorem KeptByOperations.exec (h : KeptByOperations P) (hs : P s) (he : exec i s = .next t) : P t := by
  obtain ⟨-, -, rfl⟩ := exec_next he
  exact h.complete _ _ (h.bodyOf (h.setBusy _ hs))

end

/-- Completion frees the block (R14, R15). -/
theorem complete_over (r : Result) (s : State) : Over (complete r s) :=
  ⟨rfl, rfl, rfl, rfl, rfl, rfl, rfl, rfl, rfl⟩

/-- A request that completes leaves the block free, at IDLE, 0, 0 and with nothing latched (R14, R15). -/
theorem exec_over {i : Instr} {s t : State} (h : exec i s = .next t) : Over t := by
  obtain ⟨-, -, rfl⟩ := exec_next h
  exact complete_over _ _

/-! ## The valid bits of the cache -/

/-- Every valid byte of the window cache stays valid (R17, R62). -/
def ValidKept (s t : State) : Prop := ∀ k, s.winValid.getLsbD k = true → t.winValid.getLsbD k = true

theorem ValidKept.of_same {s t : State} (h : t.winValid = s.winValid) : ValidKept s t :=
  fun _ hk => h ▸ hk

/-- Setting valid bits clears none. -/
theorem ValidKept.of_or {s t : State} (m : BitVec 3) (h : t.winValid = s.winValid ||| m) : ValidKept s t :=
  fun k hk => by rw [h, BitVec.getLsbD_or, hk, Bool.true_or]

theorem ValidKept.trans {s t u : State} (h : ValidKept s t) (k : ValidKept t u) : ValidKept s u :=
  fun b hb => k b (h b hb)

theorem validKept_kept (s : State) : KeptByOperations (ValidKept s) where
  setBusy _ h := h.trans (.of_same rfl)
  complete _ _ h := h.trans (.of_same rfl)
  xfer _ _ _ h := h.trans (.of_same rfl)
  regAccess _ _ h := h.trans (.of_same rfl)
  cacheHigh _ _ h := h.trans (.of_or _ rfl)
  cacheMed _ _ h := h.trans (.of_or _ rfl)
  cacheLow _ _ h := h.trans (.of_or _ rfl)
  setPower _ _ h := h.trans (.of_same rfl)
  waitAtLeast _ _ h := h.trans (.of_same rfl)

/-! ## Moves that touch no wire -/

/-- What the acceptance of a request and a tick of the outer sequencers can do (R140, R172): no wire moves, the bit
sequencer is at most started or set to IDLE, and the cache only gains legal valid bytes. -/
structure WiresStill (s t : State) : Prop where
  pwr : t.pwr = s.pwr
  sel : t.sel = s.sel
  clk : t.clk = s.clk
  ddir : t.ddir = s.ddir
  frames : t.frames = s.frames
  cfg : t.cfg = s.cfg
  phase : t.phase = s.phase ∨ t.phase = .idle ∨ t.phase = .select ∨ t.phase = .pwLow
  winLow : WinLowLegal s → WinLowLegal t
  valid : ValidKept s t
  rest : (s.busy = true → t.busy = true) ∨ Over t

theorem tickEncode_wiresStill (s : State) : WiresStill s (tickEncode s) := by
  unfold tickEncode
  split
  · exact ⟨rfl, rfl, rfl, rfl, rfl, rfl, .inr (.inr (.inl rfl)), id, .of_same rfl, .inl id⟩
  · exact ⟨rfl, rfl, rfl, rfl, rfl, rfl, .inl rfl, id, .of_same rfl, .inl id⟩

theorem tickStrip_wiresStill (s : State) : WiresStill s (tickStrip s) := by
  unfold tickStrip
  dsimp only
  split
  · exact ⟨rfl, rfl, rfl, rfl, rfl, rfl, .inl rfl, id, .of_or _ rfl, .inl id⟩
  · exact ⟨rfl, rfl, rfl, rfl, rfl, rfl, .inl rfl, id, .of_or _ rfl, .inl id⟩
  · exact ⟨rfl, rfl, rfl, rfl, rfl, rfl, .inl rfl, fun _ => lowByte_legal _, .of_or _ rfl, .inl id⟩
  · exact ⟨rfl, rfl, rfl, rfl, rfl, rfl, .inl rfl, id, .of_same rfl, .inl id⟩

theorem tickCompare_wiresStill (diff : Bool) (reg : BitVec 17) (v : Byte) (next : Phase) (s : State) :
    WiresStill s (tickCompare diff reg v next s) := by
  unfold tickCompare
  split <;> exact ⟨rfl, rfl, rfl, rfl, rfl, rfl, .inl rfl, id, .of_same rfl, .inl id⟩

theorem tickAccess_wiresStill (s : State) : WiresStill s (tickAccess s) := by
  unfold tickAccess
  split <;> exact ⟨rfl, rfl, rfl, rfl, rfl, rfl, .inl rfl, id, .of_same rfl, .inl id⟩

theorem complete_wiresStill (r : Result) (s : State) : WiresStill s (complete r s) :=
  ⟨rfl, rfl, rfl, rfl, rfl, rfl, .inr (.inl rfl), id, .of_same rfl, .inr (complete_over r s)⟩

theorem tickWindow_wiresStill (s : State) : WiresStill s (tickWindow s) := by
  unfold tickWindow
  dsimp only
  split
  · exact tickCompare_wiresStill _ _ _ _ s
  · exact tickCompare_wiresStill _ _ _ _ s
  · exact tickCompare_wiresStill _ _ _ _ s
  · exact tickAccess_wiresStill s
  · exact complete_wiresStill _ s

/-- A tick of the outer sequencers moves no wire (R140, R172). -/
theorem tickRegister_wiresStill (s : State) : WiresStill s (tickRegister s) := by
  unfold tickRegister
  split
  · exact tickEncode_wiresStill s
  · exact tickStrip_wiresStill s
  · exact tickWindow_wiresStill s

/-- The acceptance of a request moves no wire (R31, R101). -/
theorem accept_wiresStill (i : Instr) (s : State) : WiresStill s (accept i s) := by
  unfold accept
  dsimp only
  split
  · exact ⟨rfl, rfl, rfl, rfl, rfl, rfl, .inr (.inr (.inl rfl)), id, .of_same rfl, .inl fun _ => rfl⟩
  · exact ⟨rfl, rfl, rfl, rfl, rfl, rfl, .inr (.inr (.inr rfl)), id, .of_same rfl, .inl fun _ => rfl⟩
  · exact ⟨rfl, rfl, rfl, rfl, rfl, rfl, .inr (.inr (.inr rfl)), id, .of_same rfl, .inl fun _ => rfl⟩
  · split <;> exact ⟨rfl, rfl, rfl, rfl, rfl, rfl, .inl rfl, id, .of_same rfl, .inl fun _ => rfl⟩

theorem accept_busy (i : Instr) (s : State) : (accept i s).busy = true := by
  cases i <;> rfl

/-- Inversion of the small step: what a next state is. -/
theorem smallStep_next {s t : State} (h : smallStep s = .next t) :
    (s.resetIn = true ∧ t = blockReset s) ∨ (s.resetIn = false ∧ s.busy = true ∧ t = tick s) ∨
      (s.resetIn = false ∧ s.busy = false ∧ s.requests = [] ∧ t = s) ∨
      (∃ i img rest, s.resetIn = false ∧ s.busy = false ∧ s.requests = img :: rest ∧ decode img = .ok i ∧
        checkOf s.cfg i = none ∧ t = accept i { s with requests := rest }) := by
  unfold smallStep at h
  cases hr : s.resetIn with
  | true =>
    simp only [hr, if_true, Host.Outcome.next.injEq] at h
    exact .inl ⟨rfl, h.symm⟩
  | false =>
    cases hb : s.busy with
    | true =>
      simp only [hr, hb, Bool.false_eq_true, if_false, if_true, Host.Outcome.next.injEq] at h
      exact .inr (.inl ⟨rfl, rfl, h.symm⟩)
    | false =>
      simp only [hr, hb, Bool.false_eq_true, if_false, fetch] at h
      cases hq : s.requests with
      | nil =>
        simp only [hq, Host.Outcome.next.injEq] at h
        exact .inr (.inr (.inl ⟨rfl, rfl, rfl, h.symm⟩))
      | cons img rest =>
        cases hd : decode img with
        | error e => simp [hq, hd] at h
        | ok i =>
          simp only [hq, hd] at h
          cases hc : checkOf s.cfg i with
          | some r => simp [hc] at h
          | none =>
            simp only [hc, Host.Outcome.next.injEq] at h
            exact .inr (.inr (.inr ⟨i, img, rest, rfl, rfl, rfl, hd, hc, h.symm⟩))

end Sys2Proof.Machine

namespace Sys2Proof.Safety
open Machine

/-! ## The invariant of the latches -/

theorem idleAtRest_of_busy {t : State} (h : t.busy = true) : IdleAtRest t := fun hf => by simp [h] at hf

theorem selectedPhase_of_drivingPhase {p : Phase} (h : drivingPhase p = true) : selectedPhase p = true := by
  cases p <;> simp_all [drivingPhase, selectedPhase]

theorem selectedPhase_eq_false {p : Phase} (hout : p ≠ .shiftOut) (hturn : p ≠ .turn) (hin : p ≠ .shiftIn)
    (hrel : p ≠ .release) : selectedPhase p = false := by
  cases p <;> simp_all [selectedPhase]

/-- Outside a frame the invariant is a bus at rest, beside the layer, the position and WIN_LOW (R103, R106). -/
theorem LatchInv.of_busAtRest {t : State} (hp : bitLayer t.phase = true) (hs : selectedPhase t.phase = false)
    (hb : BusAtRest t) (hr : IdleAtRest t) (hw : WinLowLegal t) : LatchInv t := by
  obtain ⟨hsel, hclk, hdir⟩ := hb
  have hd : drivingPhase t.phase = false :=
    Bool.eq_false_iff.mpr fun h => by simp [selectedPhase_of_drivingPhase h] at hs
  exact ⟨hp, by simp [hsel, hs, selActive], by simp [hdir, hd], fun h => by simp [hclk] at h, hr, hw⟩

/-- The clock is low outside a bit cell (R103). -/
theorem LatchInv.clk_low {s : State} (h : LatchInv s) (hout : ¬ (s.phase = .shiftOut ∧ s.byteCnt < s.txbuf.length))
    (hin : ¬ (s.phase = .shiftIn ∧ s.byteCnt < s.rxLen)) : s.clk = false :=
  Bool.eq_false_iff.mpr fun hc => (h.clock hc).elim hout hin

theorem LatchInv.ddir_in {s : State} (h : LatchInv s) (hp : drivingPhase s.phase = false) : s.ddir = .in := by
  have hout : s.ddir ≠ .out := fun hdir => Bool.eq_false_iff.mp hp (h.drive.mp hdir)
  cases hdir : s.ddir
  · rfl
  · exact absurd hdir hout

/-- The bus is at rest in every phase outside a frame (R103, R106). -/
theorem LatchInv.busAtRest {s : State} (h : LatchInv s) (hp : selectedPhase s.phase = false) : BusAtRest s := by
  refine ⟨?_, h.clk_low ?_ ?_, h.ddir_in ?_⟩
  · exact Bool.eq_true_of_not_eq_false fun e => Bool.eq_false_iff.mp hp (h.select.mp e)
  · exact fun ⟨e, _⟩ => by simp [e, selectedPhase] at hp
  · exact fun ⟨e, _⟩ => by simp [e, selectedPhase] at hp
  · exact Bool.eq_false_iff.mpr fun hd => Bool.eq_false_iff.mp hp (selectedPhase_of_drivingPhase hd)

/-- A move that touches no wire keeps the invariant outside a frame. -/
theorem LatchInv.of_wiresStill {s t : State} (h : LatchInv s) (hp : selectedPhase s.phase = false)
    (w : WiresStill s t) (hr : IdleAtRest t) : LatchInv t := by
  have hphase : bitLayer t.phase = true ∧ selectedPhase t.phase = false := by
    rcases w.phase with e | e | e | e <;> rw [e]
    · exact ⟨h.layer, hp⟩
    all_goals exact ⟨rfl, rfl⟩
  obtain ⟨hsel, hclk, hdir⟩ := h.busAtRest hp
  exact .of_busAtRest hphase.1 hphase.2 ⟨w.sel.trans hsel, w.clk.trans hclk, w.ddir.trans hdir⟩ hr (w.winLow h.winLow)

/-- Taking a request from the queue touches no latch. -/
theorem LatchInv.take {s : State} (h : LatchInv s) (rest : List (List Byte)) :
    LatchInv { s with requests := rest } :=
  ⟨h.layer, h.select, h.drive, h.clock, h.rest, h.winLow⟩

theorem blockReset_latchInv (s : State) : LatchInv (blockReset s) :=
  .of_busAtRest rfl rfl ⟨rfl, rfl, rfl⟩ (fun _ => ⟨rfl, rfl, rfl, rfl, rfl, rfl, rfl, rfl⟩) (.inl rfl)

/-! ### A request -/

/-- Every operation of a request leaves the bus at rest and WIN_LOW legal. -/
theorem busAtRest_kept : KeptByOperations fun s => BusAtRest s ∧ WinLowLegal s where
  setBusy _ h := h
  complete _ _ h := h
  xfer _ _ _ h := ⟨⟨rfl, rfl, rfl⟩, h.2⟩
  regAccess _ _ h := ⟨⟨rfl, rfl, rfl⟩, h.2⟩
  cacheHigh _ _ h := h
  cacheMed _ _ h := h
  cacheLow _ _ h := ⟨h.1, lowByte_legal _⟩
  setPower _ _ h := h
  waitAtLeast _ _ h := h

/-- A request that completes keeps the invariant (D22). -/
theorem LatchInv.exec {i : Instr} {s t : State} (h : LatchInv s) (he : exec i s = .next t) : LatchInv t := by
  obtain ⟨hb, -, -⟩ := exec_next he
  obtain ⟨hidle, -⟩ := h.rest hb
  have hbus : BusAtRest s := h.busAtRest (by rw [hidle]; rfl)
  obtain ⟨hbus', hlow'⟩ := busAtRest_kept.exec ⟨hbus, h.winLow⟩ he
  have ho : Over t := exec_over he
  exact .of_busAtRest (by rw [ho.2.1]; rfl) (by rw [ho.2.1]; rfl) hbus' (fun _ => ho.2) hlow'

/-! ### A tick -/

section
variable {s : State} (h : LatchInv s) (hb : s.busy = true)
include h hb

theorem LatchInv.tickSelect (hp : s.phase = .select) : LatchInv (tickSelect s) := by
  obtain ⟨-, hclk, -⟩ := h.busAtRest (by rw [hp]; rfl)
  exact ⟨rfl, ⟨fun _ => rfl, fun _ => rfl⟩, ⟨fun _ => rfl, fun _ => rfl⟩,
    fun hc => absurd (hclk.symm.trans hc) (by decide), idleAtRest_of_busy hb, h.winLow⟩

theorem LatchInv.tickShiftOut (hp : s.phase = .shiftOut) : LatchInv (tickShiftOut s) := by
  unfold Machine.tickShiftOut
  split
  next hlt =>
    split
    · exact ⟨h.layer, h.select, h.drive, fun hc => (by cases hc), idleAtRest_of_busy hb, h.winLow⟩
    · exact ⟨h.layer, h.select, h.drive, fun _ => .inl ⟨hp, hlt⟩, idleAtRest_of_busy hb, h.winLow⟩
  next hge =>
    have hclk : s.clk = false := h.clk_low (fun c => hge c.2) (fun c => by simp [hp] at c)
    have hsel : s.sel = selActive := h.select.mpr (by rw [hp]; rfl)
    have hdir : s.ddir = .out := h.drive.mpr (by rw [hp]; rfl)
    exact ⟨rfl, ⟨fun _ => rfl, fun _ => hsel⟩, ⟨fun _ => rfl, fun _ => hdir⟩,
      fun hc => absurd (hclk.symm.trans hc) (by decide), idleAtRest_of_busy hb, h.winLow⟩

theorem LatchInv.tickTurn (hp : s.phase = .turn) : LatchInv (tickTurn s) := by
  have hclk : s.clk = false := h.clk_low (fun c => by simp [hp] at c) (fun c => by simp [hp] at c)
  have hsel : s.sel = selActive := h.select.mpr (by rw [hp]; rfl)
  exact ⟨rfl, ⟨fun _ => rfl, fun _ => hsel⟩, ⟨fun e => (by cases e), fun e => (by cases e)⟩,
    fun hc => absurd (hclk.symm.trans hc) (by decide), idleAtRest_of_busy hb, h.winLow⟩

theorem LatchInv.tickShiftIn (hp : s.phase = .shiftIn) : LatchInv (tickShiftIn s) := by
  unfold Machine.tickShiftIn
  split
  next hlt =>
    split
    · exact ⟨h.layer, h.select, h.drive, fun hc => (by cases hc), idleAtRest_of_busy hb, h.winLow⟩
    · exact ⟨h.layer, h.select, h.drive, fun _ => .inr ⟨hp, hlt⟩, idleAtRest_of_busy hb, h.winLow⟩
  next hge =>
    have hclk : s.clk = false := h.clk_low (fun c => by simp [hp] at c) (fun c => hge c.2)
    have hsel : s.sel = selActive := h.select.mpr (by rw [hp]; rfl)
    have hdir : s.ddir = .in := h.ddir_in (by rw [hp]; rfl)
    exact ⟨rfl, ⟨fun _ => rfl, fun _ => hsel⟩, ⟨fun e => (by cases hdir.symm.trans e), fun e => (by cases e)⟩,
      fun hc => absurd (hclk.symm.trans hc) (by decide), idleAtRest_of_busy hb, h.winLow⟩

theorem LatchInv.tickRelease (hp : s.phase = .release) : LatchInv (tickRelease s) := by
  have hclk : s.clk = false := h.clk_low (fun c => by simp [hp] at c) (fun c => by simp [hp] at c)
  have hdir : s.ddir = .in := h.ddir_in (by rw [hp]; rfl)
  unfold Machine.tickRelease
  dsimp only
  split <;> exact .of_busAtRest rfl rfl ⟨rfl, hclk, hdir⟩ (idleAtRest_of_busy hb) h.winLow

theorem LatchInv.tickPwLow (hp : s.phase = .pwLow) : LatchInv (tickPwLow s) := by
  have hbus : BusAtRest s := h.busAtRest (by rw [hp]; rfl)
  unfold Machine.tickPwLow
  split <;> exact .of_busAtRest rfl rfl hbus (idleAtRest_of_busy hb) h.winLow

theorem LatchInv.tickPwSettle (hp : s.phase = .pwSettle) : LatchInv (tickPwSettle s) :=
  .of_busAtRest rfl rfl (h.busAtRest (by rw [hp]; rfl)) (idleAtRest_of_busy hb) h.winLow

/-- The outer sequencers move outside a frame and touch no wire (R140, R172). -/
theorem LatchInv.tickRegister (hp : selectedPhase s.phase = false) : LatchInv (tickRegister s) := by
  have w := tickRegister_wiresStill s
  exact h.of_wiresStill hp w (w.rest.elim (fun k => idleAtRest_of_busy (k hb)) fun ho _ => ho.2)

/-- Every tick of a busy block keeps the invariant (R14, R101). -/
theorem LatchInv.tick : LatchInv (tick s) := by
  unfold Machine.tick
  split
  next hp => exact h.tickSelect hb hp
  next hp => exact h.tickShiftOut hb hp
  next hp => exact h.tickTurn hb hp
  next hp => exact h.tickShiftIn hb hp
  next hp => exact h.tickRelease hb hp
  next hp => exact h.tickPwLow hb hp
  next hp => exact h.tickPwSettle hb hp
  next hout hturn hin hrel _ _ => exact h.tickRegister hb (selectedPhase_eq_false hout hturn hin hrel)

end

theorem LatchInv.accept {s : State} (h : LatchInv s) (hb : s.busy = false) (i : Instr) : LatchInv (accept i s) := by
  obtain ⟨hidle, -⟩ := h.rest hb
  exact h.of_wiresStill (by rw [hidle]; rfl) (accept_wiresStill i s) (idleAtRest_of_busy (accept_busy i s))

/-- Settles O34: the four cases of a step. -/
theorem stepsKeepTheLatchInvariant : Obligations.StepsKeepTheLatchInvariant := by
  intro s t h hs
  obtain ⟨-, rfl⟩ | ⟨-, hb, rfl⟩ | ⟨-, -, -, rfl⟩ | ⟨i, img, rest, -, -, -, -, he⟩ := step_next hs
  · exact blockReset_latchInv s
  · exact h.tick hb
  · exact h
  · exact (h.take rest).exec he

/-- Settles O35: as O34, with the acceptance of a request in the place of its performance. -/
theorem smallStepsKeepTheLatchInvariant : Obligations.SmallStepsKeepTheLatchInvariant := by
  intro s t h hs
  obtain ⟨-, rfl⟩ | ⟨-, hb, rfl⟩ | ⟨-, -, -, rfl⟩ | ⟨i, img, rest, -, hb, -, -, -, rfl⟩ := smallStep_next hs
  · exact blockReset_latchInv s
  · exact h.tick hb
  · exact h
  · exact (h.take rest).accept hb i

end Sys2Proof.Safety

/-! What a tick and a request do at the frame grain (R9, R18): the valid bits of the cache, the power line, and its
agreement with the trace; and the state after reset (R25). -/
namespace Sys2Proof.Machine
open Safety

/-! ## What a tick and a request do at the frame grain -/

/-- At the frame grain (R9): nothing happens, or one frame with the power line as it was, or one power event and the
line at its level. -/
inductive FrameGrain (s t : State) : Prop where
  | still (hf : t.frames = s.frames) (hp : t.pwr = s.pwr)
  | frame (tx rx : List Byte) (hf : t.frames = s.frames ++ [.frame tx rx]) (hp : t.pwr = s.pwr)
  | power (l : Bool) (hf : t.frames = s.frames ++ [.power l]) (hp : t.pwr = l)

theorem WiresStill.frameGrain {s t : State} (w : WiresStill s t) : FrameGrain s t := .still w.frames w.pwr

/-- A tick is at most one event at the frame grain, and invalidates no cache byte. -/
structure TickEffect (s t : State) : Prop where
  grain : FrameGrain s t
  valid : ValidKept s t

theorem tickShiftOut_effect (s : State) : TickEffect s (tickShiftOut s) := by
  unfold tickShiftOut
  split
  · split <;> exact ⟨.still rfl rfl, .of_same rfl⟩
  · exact ⟨.still rfl rfl, .of_same rfl⟩

theorem tickShiftIn_effect (s : State) : TickEffect s (tickShiftIn s) := by
  unfold tickShiftIn
  split
  · split <;> exact ⟨.still rfl rfl, .of_same rfl⟩
  · exact ⟨.still rfl rfl, .of_same rfl⟩

theorem tickRelease_effect (s : State) : TickEffect s (tickRelease s) := by
  unfold tickRelease
  dsimp only
  split <;> exact ⟨.frame _ _ rfl rfl, .of_same rfl⟩

theorem tickPwLow_effect (s : State) : TickEffect s (tickPwLow s) := by
  unfold tickPwLow
  split <;> exact ⟨.power false rfl rfl, .of_same rfl⟩

theorem tick_effect (s : State) : TickEffect s (tick s) := by
  unfold tick
  split
  · exact ⟨.still rfl rfl, .of_same rfl⟩
  · exact tickShiftOut_effect s
  · exact ⟨.still rfl rfl, .of_same rfl⟩
  · exact tickShiftIn_effect s
  · exact tickRelease_effect s
  · exact tickPwLow_effect s
  · exact ⟨.power true rfl rfl, .of_same rfl⟩
  · have w := tickRegister_wiresStill s
    exact ⟨w.frameGrain, w.valid⟩

/-- Block reset drops the power line, with an event exactly where it was high (R210). -/
theorem blockReset_frameGrain (s : State) : FrameGrain s (blockReset s) := by
  cases hp : s.pwr with
  | false => exact .still (by simp [blockReset, hp]) hp.symm
  | true => exact .power false (by simp [blockReset, hp]) rfl

/-- Settles O15: a tick and every operation of a request at most set valid bits. -/
theorem onlyResetInvalidatesTheCache : Obligations.OnlyResetInvalidatesTheCache := by
  intro s t hr hs
  change ValidKept s t
  obtain ⟨hr', -⟩ | ⟨-, -, rfl⟩ | ⟨-, -, -, rfl⟩ | ⟨i, img, rest, -, -, -, -, he⟩ := step_next hs
  · simp [hr] at hr'
  · exact (tick_effect s).valid
  · exact .of_same rfl
  · exact (validKept_kept s).exec (s := { s with requests := rest }) (.of_same rfl) he

/-- From s to t the power line is not moved, no wait is asked, and no power event is emitted. -/
def PowerUntouched (s t : State) : Prop :=
  t.pwr = s.pwr ∧ t.delays = s.delays ∧ ∃ fs, t.frames = s.frames ++ fs ∧ ∀ l, FrameEvent.power l ∉ fs

theorem PowerUntouched.refl (s : State) : PowerUntouched s s :=
  ⟨rfl, rfl, [], (List.append_nil _).symm, fun _ => List.not_mem_nil⟩

/-- One more frame touches the power line no more than before. -/
theorem PowerUntouched.frame {s t u : State} (h : PowerUntouched s t) {tx rx : List Byte} (hp : u.pwr = t.pwr)
    (hd : u.delays = t.delays) (hf : u.frames = t.frames ++ [.frame tx rx]) : PowerUntouched s u := by
  obtain ⟨hp', hd', fs, hf', hfs⟩ := h
  exact ⟨hp.trans hp', hd.trans hd', fs ++ [.frame tx rx], by rw [hf, hf', List.append_assoc],
    fun l => by simp [hfs l]⟩

theorem powerUntouched_kept (s : State) : KeptByFrames (PowerUntouched s) where
  setBusy _ h := h
  complete _ _ h := h
  xfer _ _ _ h := h.frame rfl rfl rfl
  regAccess _ _ h := h.frame rfl rfl rfl
  cacheHigh _ _ h := h
  cacheMed _ _ h := h
  cacheLow _ _ h := h

/-- Settles O16: a request outside the power family is made of frames and cache updates. -/
theorem onlyPowerRequestsMoveThePowerLine : Obligations.OnlyPowerRequestsMoveThePowerLine :=
  fun _ s _ hon hoff he => (powerUntouched_kept s).exec hon hoff (.refl s) he

end Sys2Proof.Machine

namespace Sys2Proof.Safety
open Machine

/-! ## The power line and the trace -/

/-- Whatever happens at the frame grain, the power line stays as the trace tells (R18, R29). -/
theorem PowerTraced.of_frameGrain {s t : State} (h : PowerTraced s) (hc : t.cfg = s.cfg) (m : FrameGrain s t) :
    PowerTraced t := by
  unfold PowerTraced at h ⊢
  cases m with
  | still hf hp => rw [hc, hf, hp, h]
  | frame tx rx hf hp => rw [hc, hf, hp, chipWindow_append, ← h]; exact see_frame_on _ _ tx rx
  | power l hf hp => rw [hf, hp, chipWindow_append]; rfl

theorem powerTraced_kept : KeptByOperations PowerTraced where
  setBusy _ h := h
  complete _ _ h := h
  xfer _ _ _ h := h.of_frameGrain rfl (.frame _ _ rfl rfl)
  regAccess _ _ h := h.of_frameGrain rfl (.frame _ _ rfl rfl)
  cacheHigh _ _ h := h
  cacheMed _ _ h := h
  cacheLow _ _ h := h
  setPower l _ h := h.of_frameGrain rfl (.power l rfl rfl)
  waitAtLeast _ _ h := h

theorem PowerTraced.blockReset {s : State} (h : PowerTraced s) : PowerTraced (blockReset s) :=
  h.of_frameGrain rfl (blockReset_frameGrain s)

theorem PowerTraced.tick {s : State} (h : PowerTraced s) : PowerTraced (tick s) :=
  h.of_frameGrain (tick_keeps s).cfg (tick_effect s).grain

theorem PowerTraced.accept {s : State} (h : PowerTraced s) (i : Instr) : PowerTraced (accept i s) :=
  have w := accept_wiresStill i s
  h.of_frameGrain w.cfg w.frameGrain

/-- Settles O52: a request, and then the four cases of a step and of a small step. -/
theorem stepsKeepThePowerTrace : Obligations.StepsKeepThePowerTrace := by
  rintro s t h (⟨i, he⟩ | hs | hs)
  · exact powerTraced_kept.exec h he
  · obtain ⟨-, rfl⟩ | ⟨-, -, rfl⟩ | ⟨-, -, -, rfl⟩ | ⟨i, img, rest, -, -, -, -, he⟩ := step_next hs
    · exact h.blockReset
    · exact h.tick
    · exact h
    · exact powerTraced_kept.exec (s := { s with requests := rest }) h he
  · obtain ⟨-, rfl⟩ | ⟨-, -, rfl⟩ | ⟨-, -, -, rfl⟩ | ⟨i, img, rest, -, -, -, -, -, rfl⟩ := smallStep_next hs
    · exact h.blockReset
    · exact h.tick
    · exact h
    · exact PowerTraced.accept (s := { s with requests := rest }) h i

/-! ## The state after reset -/

/-- Settles O14: the values of R25, and the step of a block without a request (R212). -/
theorem resetLeavesTheBlockQuiet : Obligations.ResetLeavesTheBlockQuiet :=
  ⟨rfl, rfl, rfl, ⟨rfl, rfl, rfl⟩, ⟨rfl, rfl, rfl, rfl, rfl, rfl, rfl, rfl, rfl⟩, rfl⟩

theorem reset_latchInv : LatchInv State.reset :=
  .of_busAtRest rfl rfl ⟨rfl, rfl, rfl⟩ (fun _ => ⟨rfl, rfl, rfl, rfl, rfl, rfl, rfl, rfl⟩) (.inl rfl)

theorem defaultParams_valid : ParamsValid defaultParams :=
  ⟨by decide, by decide, by decide, .inl rfl⟩

/-- A cache without a valid byte is right. -/
theorem coherent_of_invalid {s : State} (h : s.winValid = 0#3) : Coherent s := by
  simp [Coherent, h]

/-- Settles O36. -/
theorem resetSatisfiesTheLatchInvariant : Obligations.ResetSatisfiesTheLatchInvariant :=
  ⟨reset_latchInv, defaultParams_valid, coherent_of_invalid rfl, rfl⟩

end Sys2Proof.Safety

/-! The chip's window registers as the frames tell (R27, R171, R224; log 19): which frames write them, and that a right
cache stays right. -/
namespace Sys2Proof.Machine

/-! ## Command words on the wire -/

theorem byteOf_getLsbD (v : Word) (i k : Nat) (hk : k < 8) : (byteOf v i).getLsbD k = v.getLsbD (8 * i + k) := by
  simp [byteOf, hk]

/-- A command word is read back from its four bytes (R121). -/
theorem cmdBytes_inj {c d : Word} (h : cmdBytes c = cmdBytes d) : c = d := by
  simp only [cmdBytes, toLE32, List.cons.injEq, and_true] at h
  obtain ⟨h0, h1, h2, h3⟩ := h
  have hbyte : ∀ i < 4, byteOf c i = byteOf d i := by
    intro i hi
    interval_cases i <;> assumption
  refine BitVec.eq_of_getLsbD_eq fun k hk => ?_
  have hb := congrArg (fun b => b.getLsbD (k % 8)) (hbyte (k / 8) (by omega))
  simpa [byteOf_getLsbD _ _ _ (Nat.mod_lt k (by decide : 0 < 8)), Nat.div_add_mod] using hb

/-- The function code of a command word (R71). -/
theorem cmdWord_fn_inj {w w' i i' : BitVec 1} {f f' : BitVec 2} {a a' n n' : Word}
    (h : cmdWord w i f a n = cmdWord w' i' f' a' n') : f = f' := by
  refine BitVec.eq_of_getLsbD_eq fun k hk => ?_
  have hb := congrArg (fun c => c.getLsbD (28 + k)) h
  simp only [cmdWord_getLsbD] at hb
  interval_cases k <;> simpa using hb

/-- The address field of a command word (R71, R77). -/
theorem cmdWord_addr_inj {w w' i i' : BitVec 1} {f f' : BitVec 2} {r r' : BitVec 17} {n n' : Word}
    (h : cmdWord w i f (r.setWidth 32) n = cmdWord w' i' f' (r'.setWidth 32) n') : r = r' := by
  refine BitVec.eq_of_getLsbD_eq fun k hk => ?_
  have hb := congrArg (fun c => c.getLsbD (11 + k)) h
  simp only [cmdWord_getLsbD] at hb
  interval_cases k <;> simpa using hb

@[simp] theorem cmdBytes_length (c : Word) : (cmdBytes c).length = 4 := rfl

/-! ## The accesses behind the requests -/

/-- The access of a windowed request is a backplane access in normal byte order (R173, R174). -/
theorem accessOf_windowed {cfg : Params} {i : Instr} {w : Word} {a : Access} (hw : windowOf i = some w)
    (ha : accessOf cfg i = some a) : a.fn = fnBackplane ∧ a.swapped = false := by
  cases i <;> simp_all [windowOf, accessOf] <;> subst ha <;> exact ⟨rfl, rfl⟩

/-- A read sends its four command bytes and nothing else (R73, R75). -/
theorem accTx_length_of_read {a : Access} (h : a.write = 0#1) : (accTx a).length = 4 := by
  simp [accTx, accData, h, apply_ite List.length, swap16_length]

/-- A request of the window family without an access is SETWIN alone (R91). -/
theorem bodyOf_setwin {cfg : Params} {i : Instr} {w : Word} {s : State} (ha : accessOf cfg i = none)
    (hw : windowOf i = some w) : bodyOf cfg i s = setWindow w s := by
  cases i <;> simp_all [accessOf, windowOf, bodyOf]

end Sys2Proof.Machine

namespace Sys2Proof.Safety
open Machine

/-! ## Which frames write a window register -/

@[simp] theorem winRegTx_length (reg : BitVec 17) (v : Byte) : (winRegTx reg v).length = 8 := rfl

theorem accTx_winRegAcc_eq (reg : BitVec 17) (v : Byte) : accTx (winRegAcc reg v) = winRegTx reg v :=
  accTx_winRegAcc reg v

theorem windowByte_winRegTx_self (reg : BitVec 17) (v : Byte) : windowByte reg (winRegTx reg v) = some v := by
  simp [windowByte, winRegTx, cmdBytes, toLE32]

/-- A frame whose command word is not the register's writes nothing there. -/
theorem windowByte_of_cmd_ne {reg : BitVec 17} {c : Word} (d : List Byte)
    (h : c ≠ cmdWord 1#1 incDefault winFn (reg.setWidth 32) 1#32) : windowByte reg (cmdBytes c ++ d) = none := by
  refine if_neg fun he => h ?_
  exact cmdBytes_inj (List.append_inj he rfl).1

/-- A write of another window register leaves this one. -/
theorem windowByte_winRegTx_ne {reg reg' : BitVec 17} (h : reg' ≠ reg) (v : Byte) :
    windowByte reg (winRegTx reg' v) = none :=
  windowByte_of_cmd_ne _ fun he => h (cmdWord_addr_inj he)

/-- A frame of another length writes no window register. -/
theorem windowByte_of_length_ne {tx : List Byte} (h : tx.length ≠ 8) (reg : BitVec 17) : windowByte reg tx = none :=
  if_neg fun he => h (by rw [he, winRegTx_length])

/-- A backplane access in normal byte order writes no window register: its function code is another (R51, R53). -/
theorem windowByte_of_backplane {a : Access} (hf : a.fn = fnBackplane) (hs : a.swapped = false) (reg : BitVec 17) :
    windowByte reg (accTx a) = none := by
  have hne : accCmd a ≠ cmdWord 1#1 incDefault winFn (reg.setWidth 32) 1#32 := fun he => by
    have hfn : fnBackplane = winFn := hf.symm.trans (cmdWord_fn_inj he)
    exact absurd hfn (by decide)
  simpa [accTx, hs] using windowByte_of_cmd_ne (accData a) hne

/-- A frame that writes no window register changes nothing known of them. -/
theorem see_frame_of_no_write {cfg : Params} {w : ChipWindow} {tx : List Byte} (rx : List Byte)
    (h : ∀ reg, windowByte reg tx = none) : w.see cfg (.frame tx rx) = w := by
  cases hon : w.on with
  | false => exact see_frame_off hon tx rx
  | true => simp [see_frame_on_eq hon, ChipWindow.write, h]

/-! ## A right cache -/

/-- A right cache stays right over a frame that writes no window register. -/
theorem Coherent.of_frame {s t : State} {tx rx : List Byte} (h : Coherent s) (hc : SameCache s t)
    (hcfg : t.cfg = s.cfg) (hf : t.frames = s.frames ++ [.frame tx rx]) (hw : ∀ reg, windowByte reg tx = none) :
    Coherent t := by
  obtain ⟨hhigh, hmed, hlow, hvalid⟩ := hc
  have hchip : chipWindow t.cfg t.frames = chipWindow s.cfg s.frames := by
    rw [hcfg, hf, chipWindow_append]
    exact see_frame_of_no_write rx hw
  unfold Coherent
  rwa [hhigh, hmed, hlow, hvalid, hchip]

theorem Coherent.regAccess {s : State} {a : Access} (h : Coherent s) (hw : ∀ reg, windowByte reg (accTx a) = none) :
    Coherent (regAccess a s) :=
  h.of_frame ⟨rfl, rfl, rfl, rfl⟩ rfl rfl hw

/-- With a right cache that holds the window of A the chip is at that window (R55, R61). -/
theorem Coherent.windowIs {t : State} {a : Word} (h : Coherent t) (hc : CacheIs t a) :
    WindowIs (chipWindow t.cfg t.frames) a := by
  obtain ⟨hhigh, hmed, hlow, hvalid⟩ := hc
  obtain ⟨ch, cm, cl⟩ := h
  rw [hvalid] at ch cm cl
  exact ⟨hhigh ▸ ch rfl, hmed ▸ cm rfl, hlow ▸ cl rfl⟩

/-- A register read that completes keeps a right cache right. -/
theorem Coherent.exec_read {i : Instr} {s t : State} {a : Access} (h : Coherent s) (ha : accessOf s.cfg i = some a)
    (hw : windowOf i = none) (hr : a.write = 0#1) (he : exec i s = .next t) : Coherent t := by
  obtain ⟨-, -, rfl⟩ := exec_next he
  rw [bodyOf_register ha hw]
  have hlen : (accTx a).length ≠ 8 := by rw [accTx_length_of_read hr]; decide
  exact Coherent.regAccess (s := setBusy s) h (windowByte_of_length_ne hlen)

/-- Settles O46: each of the five is one read access outside the window family. -/
theorem readsKeepTheCacheRight : Obligations.ReadsKeepTheCacheRight := by
  rintro i s t h (⟨fn, inc, addr, n, rfl⟩ | ⟨fn, addr, rfl⟩ | ⟨fn, addr, rfl⟩ | ⟨fn, addr, rfl⟩ | ⟨fn, addr, rfl⟩) he
  all_goals exact h.exec_read rfl rfl rfl he

/-! ### SETWIN and the windowed accesses -/

/-- The chip has power, its window registers are three, and the cache is right. -/
structure Tracked (s : State) : Prop where
  params : ParamsValid s.cfg
  on : (chipWindow s.cfg s.frames).on = true
  coherent : Coherent s

/-- What a window write changes of a chip with three window registers: the register it addresses (R171). -/
theorem write_winRegHigh {cfg : Params} (hp : ParamsValid cfg) (w : ChipWindow) (v : Byte) :
    w.write cfg (winRegTx cfg.winRegHigh v) = { w with high := some v } := by
  obtain ⟨hm, hl, -, -⟩ := hp
  simp [ChipWindow.write, windowByte_winRegTx_self, windowByte_winRegTx_ne hm, windowByte_winRegTx_ne hl]

theorem write_winRegMed {cfg : Params} (hp : ParamsValid cfg) (w : ChipWindow) (v : Byte) :
    w.write cfg (winRegTx cfg.winRegMed v) = { w with med := some v } := by
  obtain ⟨hh, -, hl, -⟩ := hp
  simp [ChipWindow.write, windowByte_winRegTx_self, windowByte_winRegTx_ne hh.symm, windowByte_winRegTx_ne hl]

theorem write_winRegLow {cfg : Params} (hp : ParamsValid cfg) (w : ChipWindow) (v : Byte) :
    w.write cfg (winRegTx cfg.winRegLow v) = { w with low := some v } := by
  obtain ⟨-, hh, hm, -⟩ := hp
  simp [ChipWindow.write, windowByte_winRegTx_self, windowByte_winRegTx_ne hh.symm, windowByte_winRegTx_ne hm.symm]

/-- A window write reaches a chip with power. -/
theorem chipWindow_winRegAcc {s : State} (hon : (chipWindow s.cfg s.frames).on = true) (reg : BitVec 17) (v : Byte) :
    chipWindow s.cfg (regAccess (winRegAcc reg v) s).frames =
      (chipWindow s.cfg s.frames).write s.cfg (winRegTx reg v) := by
  rw [regAccess_frames, chipWindow_append, accTx_winRegAcc_eq, accRl_winRegAcc, drawBytes_zero]
  exact see_frame_on_eq hon _ []

theorem Tracked.winStepHigh {s : State} (h : Tracked s) (a : Word) : Tracked (winStepHigh a s) := by
  rcases winStepHigh_cases a s with ⟨-, e⟩ | ⟨-, e⟩ <;> rw [e]
  · exact h
  · obtain ⟨-, cm, cl⟩ := h.coherent
    have hchip := (chipWindow_winRegAcc h.on _ (highByte a)).trans (write_winRegHigh h.params _ _)
    exact ⟨h.params, (congrArg ChipWindow.on hchip).trans h.on,
      fun _ => congrArg ChipWindow.high hchip,
      fun hv => (congrArg ChipWindow.med hchip).trans (cm (by simpa [validBit] using hv)),
      fun hv => (congrArg ChipWindow.low hchip).trans (cl (by simpa [validBit] using hv))⟩

theorem Tracked.winStepMed {s : State} (h : Tracked s) (a : Word) : Tracked (winStepMed a s) := by
  rcases winStepMed_cases a s with ⟨-, e⟩ | ⟨-, e⟩ <;> rw [e]
  · exact h
  · obtain ⟨ch, -, cl⟩ := h.coherent
    have hchip := (chipWindow_winRegAcc h.on _ (medByte a)).trans (write_winRegMed h.params _ _)
    exact ⟨h.params, (congrArg ChipWindow.on hchip).trans h.on,
      fun hv => (congrArg ChipWindow.high hchip).trans (ch (by simpa [validBit] using hv)),
      fun _ => congrArg ChipWindow.med hchip,
      fun hv => (congrArg ChipWindow.low hchip).trans (cl (by simpa [validBit] using hv))⟩

theorem Tracked.winStepLow {s : State} (h : Tracked s) (a : Word) : Tracked (winStepLow a s) := by
  rcases winStepLow_cases a s with ⟨-, e⟩ | ⟨-, e⟩ <;> rw [e]
  · exact h
  · obtain ⟨ch, cm, -⟩ := h.coherent
    have hchip := (chipWindow_winRegAcc h.on _ (lowByte a)).trans (write_winRegLow h.params _ _)
    exact ⟨h.params, (congrArg ChipWindow.on hchip).trans h.on,
      fun hv => (congrArg ChipWindow.high hchip).trans (ch (by simpa [validBit] using hv)),
      fun hv => (congrArg ChipWindow.med hchip).trans (cm (by simpa [validBit] using hv)),
      fun _ => congrArg ChipWindow.low hchip⟩

theorem Tracked.setWindow {s : State} (h : Tracked s) (a : Word) : Tracked (setWindow a s) :=
  ((h.winStepHigh a).winStepMed a).winStepLow a

/-- A request of the window family leaves the cache right and at the window of its address (R171, R173, R174). -/
theorem Tracked.bodyOf_windowed {i : Instr} {s : State} {w : Word} (h : Tracked s) (hw : windowOf i = some w) :
    Coherent (bodyOf s.cfg i s) ∧ CacheIs (bodyOf s.cfg i s) w := by
  have hset : Coherent (Machine.setWindow w s) := (h.setWindow w).coherent
  have hcache : CacheIs (Machine.setWindow w s) w := setWindow_cache w s
  cases ha : accessOf s.cfg i with
  | none =>
    rw [bodyOf_setwin ha hw]
    exact ⟨hset, hcache⟩
  | some acc =>
    obtain ⟨hfn, hswap⟩ := accessOf_windowed hw ha
    rw [Machine.bodyOf_windowed ha hw]
    exact ⟨hset.regAccess (windowByte_of_backplane hfn hswap), hcache⟩

/-- Settles O45: the right cache holds the window of the address, so the chip is at that window. -/
theorem windowRequestsSelectTheWindow : Obligations.WindowRequestsSelectTheWindow := by
  intro i s t a hw hp hc hpwr htr he
  have hstart : Tracked (setBusy s) := ⟨hp, htr.trans hpwr, hc⟩
  obtain ⟨-, -, rfl⟩ := exec_next he
  obtain ⟨hcoh, hcache⟩ := hstart.bodyOf_windowed hw
  exact ⟨hcoh.windowIs hcache, hcoh⟩

end Sys2Proof.Safety

/-! Noninterference (R30): two chips, one behaviour. -/
namespace Sys2Proof.Safety
open Machine

/-! ## Two chips -/

/-- Two runs of the block that differ in the values the chip supplied and nowhere else that counts: the same cache,
lines, waits and parameters, the same bytes driven, as many bits sampled (R30). -/
structure SameButData (t u : State) : Prop where
  cache : SameCache t u
  lines : SamePins t u
  pwr : u.pwr = t.pwr
  delays : u.delays = t.delays
  cfg : u.cfg = t.cfg
  cmd : u.cmd = t.cmd
  txbuf : u.txbuf = t.txbuf
  rxbuf : u.rxbuf.length = t.rxbuf.length
  drawCount : u.drawCount = t.drawCount
  frames : t.frames.map driven = u.frames.map driven

theorem SameButData.of_chip (s : State) (bits : List Bool) : SameButData s { s with chipBits := bits } :=
  ⟨⟨rfl, rfl, rfl, rfl⟩, ⟨rfl, rfl, rfl, rfl⟩, rfl, rfl, rfl, rfl, rfl, rfl, rfl, rfl⟩

section
variable {t u : State} (h : SameButData t u)
include h

theorem SameButData.setBusy : SameButData (setBusy t) (setBusy u) :=
  ⟨h.cache, h.lines, h.pwr, h.delays, h.cfg, h.cmd, h.txbuf, h.rxbuf, h.drawCount, h.frames⟩

theorem SameButData.complete (r r' : Result) : SameButData (complete r t) (complete r' u) :=
  ⟨h.cache, h.lines, h.pwr, h.delays, h.cfg, h.cmd, h.txbuf, h.rxbuf, h.drawCount, h.frames⟩

theorem SameButData.setPower (l : Bool) : SameButData (setPower l t) (setPower l u) :=
  ⟨h.cache, h.lines, rfl, h.delays, h.cfg, h.cmd, h.txbuf, h.rxbuf, h.drawCount, by simp [h.frames]⟩

theorem SameButData.waitAtLeast (ms : Nat) : SameButData (waitAtLeast ms t) (waitAtLeast ms u) :=
  ⟨h.cache, h.lines, h.pwr, by simp [h.delays], h.cfg, h.cmd, h.txbuf, h.rxbuf, h.drawCount, h.frames⟩

/-- A transfer drives the same bytes and samples as many, whatever it receives (R100). -/
theorem SameButData.xfer (tx : List Byte) (rl : Nat) : SameButData (xfer tx rl t) (xfer tx rl u) := by
  obtain ⟨-, -, -, hdout⟩ := h.lines
  exact ⟨h.cache, ⟨rfl, rfl, rfl, congrArg (lastDriven tx) hdout⟩, h.pwr, h.delays, h.cfg, h.cmd, rfl, by simp,
    congrArg (· + 8 * rl) h.drawCount, by simp [h.frames, driven]⟩

theorem SameButData.regAccess (a : Access) : SameButData (regAccess a t) (regAccess a u) := by
  have hcmd : SameButData { t with cmd := accCmd a } { u with cmd := accCmd a } :=
    ⟨h.cache, h.lines, h.pwr, h.delays, h.cfg, rfl, h.txbuf, h.rxbuf, h.drawCount, h.frames⟩
  exact hcmd.xfer (accTx a) (accRl a)

/-- One byte of the cache is compared, written and cached alike. -/
theorem SameButData.winStepHigh (a : Word) : SameButData (winStepHigh a t) (winStepHigh a u) := by
  obtain ⟨hhigh, hmed, hlow, hvalid⟩ := h.cache
  have hd : differs u 2 u.winHigh (highByte a) = differs t 2 t.winHigh (highByte a) := by simp [differs, hhigh, hvalid]
  unfold Machine.winStepHigh
  rw [hd, h.cfg]
  split
  · have k := h.regAccess (winRegAcc t.cfg.winRegHigh (highByte a))
    exact { k with cache := ⟨rfl, hmed, hlow, congrArg (· ||| validBit 2) hvalid⟩ }
  · exact h

theorem SameButData.winStepMed (a : Word) : SameButData (winStepMed a t) (winStepMed a u) := by
  obtain ⟨hhigh, hmed, hlow, hvalid⟩ := h.cache
  have hd : differs u 1 u.winMed (medByte a) = differs t 1 t.winMed (medByte a) := by simp [differs, hmed, hvalid]
  unfold Machine.winStepMed
  rw [hd, h.cfg]
  split
  · have k := h.regAccess (winRegAcc t.cfg.winRegMed (medByte a))
    exact { k with cache := ⟨hhigh, rfl, hlow, congrArg (· ||| validBit 1) hvalid⟩ }
  · exact h

theorem SameButData.winStepLow (a : Word) : SameButData (winStepLow a t) (winStepLow a u) := by
  obtain ⟨hhigh, hmed, hlow, hvalid⟩ := h.cache
  have hd : differs u 0 u.winLow (lowByte a) = differs t 0 t.winLow (lowByte a) := by simp [differs, hlow, hvalid]
  unfold Machine.winStepLow
  rw [hd, h.cfg]
  split
  · have k := h.regAccess (winRegAcc t.cfg.winRegLow (lowByte a))
    exact { k with cache := ⟨hhigh, hmed, rfl, congrArg (· ||| validBit 0) hvalid⟩ }
  · exact h

theorem SameButData.setWindow (a : Word) : SameButData (setWindow a t) (setWindow a u) :=
  ((h.winStepHigh a).winStepMed a).winStepLow a

/-- No operation branches on received data (R30). -/
theorem SameButData.bodyOf (cfg : Params) (i : Instr) : SameButData (bodyOf cfg i t) (bodyOf cfg i u) := by
  unfold Machine.bodyOf
  split
  · exact h.xfer _ _
  · exact (((h.setPower false).waitAtLeast _).setPower true).waitAtLeast _
  · exact h.setPower false
  · exact h.setWindow _
  · split
    · exact (h.setWindow _).regAccess _
    · exact h.regAccess _
    · exact h

end

/-- The frames two such runs added agree in what was driven. -/
theorem SameButData.added {s t u : State} {fs gs : List FrameEvent} (h : SameButData t u)
    (ht : t.frames = s.frames ++ fs) (hu : u.frames = s.frames ++ gs) : fs.map driven = gs.map driven := by
  have hmap := h.frames
  rw [ht, hu, List.map_append, List.map_append] at hmap
  exact List.append_cancel_left hmap

/-- The same request completes with any other chip, and the two runs differ in received data alone (R30). -/
theorem exec_sameButData {i : Instr} {s t : State} (bits : List Bool) (he : exec i s = .next t) :
    ∃ u, exec i { s with chipBits := bits } = .next u ∧ SameButData t u := by
  obtain ⟨hb, hc, rfl⟩ := exec_next he
  exact ⟨_, exec_completes (s := { s with chipBits := bits }) hb hc,
    (((SameButData.of_chip s bits).setBusy).bodyOf s.cfg i).complete _ _⟩

/-- Settles O42: a simulation between the two runs, operation by operation. -/
theorem receivedDataSteersNothing : Obligations.ReceivedDataSteersNothing := by
  intro i s t bits he
  obtain ⟨u, hu, h⟩ := exec_sameButData bits he
  obtain ⟨fs, hfs⟩ := (exec_onlyAppends he).frames
  obtain ⟨gs, hgs⟩ := (exec_onlyAppends hu).frames
  exact ⟨u, fs, gs, hu, hfs.symm, hgs.symm, h.added hfs.symm hgs.symm, h.drawCount, h.cache, h.lines, h.pwr,
    h.delays, h.cmd, h.txbuf, h.rxbuf, exec_over he, exec_over hu⟩

end Sys2Proof.Safety

/-! The wires as a monitor reads them (R9, R40, R100 to R106), the addresses that alias (R77, R225), and the request an
idle block finds at its port (R58, R193, R212). -/
namespace Sys2Proof.Safety
open Machine

/-! ## Both grains of the wire trace -/

theorem Emitted.refl (s : State) : Emitted s s [] := ⟨by simp, by simp⟩

theorem Emitted.trans {s t u : State} {fs gs : List FrameEvent} (h : Emitted s t fs) (k : Emitted t u gs) :
    Emitted s u (fs ++ gs) := by
  obtain ⟨hf, hp⟩ := h
  obtain ⟨kf, kp⟩ := k
  exact ⟨by rw [kf, hf, List.append_assoc], by rw [kp, hp, List.flatMap_append, List.append_assoc]⟩

/-- One event at the frame grain, with its pin events. -/
theorem Emitted.of_event {s t : State} {f : FrameEvent} (hf : t.frames = s.frames ++ [f])
    (hp : t.pins = s.pins ++ framePins f) : Emitted s t [f] :=
  ⟨hf, by rw [hp, List.flatMap_singleton]⟩

/-- Every operation of a request moves the pins as its frame-grain events say. -/
theorem emitted_kept (s : State) : KeptByOperations fun t => ∃ fs, Emitted s t fs where
  setBusy _ h := h
  complete _ _ h := h
  xfer _ _ _ := fun ⟨_, h⟩ => ⟨_, h.trans (.of_event rfl rfl)⟩
  regAccess _ _ := fun ⟨_, h⟩ => ⟨_, h.trans (.of_event rfl rfl)⟩
  cacheHigh _ _ h := h
  cacheMed _ _ h := h
  cacheLow _ _ h := h
  setPower _ _ := fun ⟨_, h⟩ => ⟨_, h.trans (.of_event rfl rfl)⟩
  waitAtLeast _ _ h := h

/-- A request that completes adds to the pins exactly the pin events of its frame-grain events (R9). -/
theorem exec_emitted {i : Instr} {s t : State} (h : exec i s = .next t) : ∃ fs, Emitted s t fs :=
  (emitted_kept s).exec ⟨[], .refl s⟩ h

/-! ## What the monitor reads -/

/-- Bytes put on the line most significant bit first are read back (R40). -/
theorem bytesOfBits_flatMap_bitsMsb (bs : List Byte) : bytesOfBits (bs.flatMap bitsMsb) = bs := by
  induction bs with
  | nil => rfl
  | cons b bs ih =>
    calc bytesOfBits ((b :: bs).flatMap bitsMsb)
      _ = byteOfBits (bitsMsb b) :: bytesOfBits (bs.flatMap bitsMsb) := rfl
      _ = b :: bs := by rw [byteOfBits_bitsMsb, ih]

theorem flatMap_outByte (bs : List Byte) : bs.flatMap outByte = (bs.flatMap bitsMsb).flatMap outCell :=
  List.flatMap_assoc.symm

theorem flatMap_inByte (bs : List Byte) : bs.flatMap inByte = (bs.flatMap bitsMsb).flatMap inCell :=
  List.flatMap_assoc.symm

/-- Output cells give the monitor their bits, one at each rising edge (R104). -/
theorem see_outCells {m : Monitor} (hs : m.selected = true) (hd : m.driven = true) (bits : List Bool) :
    (bits.flatMap outCell).foldl Monitor.see m =
      { m with level := bits.getLastD m.level, sent := m.sent ++ bits } := by
  induction bits generalizing m with
  | nil => simp
  | cons b bits ih =>
    have cell : (outCell b).foldl Monitor.see m = { m with level := b, sent := m.sent ++ [b] } := by
      simp [outCell, Monitor.see, hs, hd]
    rw [List.flatMap_cons, List.foldl_append, cell]
    exact (ih (m := { m with level := b, sent := m.sent ++ [b] }) hs hd).trans
      (by simp only [List.getLastD_cons, List.append_assoc, List.singleton_append])

/-- Input cells give the monitor the bits sampled; with the line not driven their clock edges count for nothing
(R105, R106). -/
theorem see_inCells {m : Monitor} (hs : m.selected = true) (hd : m.driven = false) (bits : List Bool) :
    (bits.flatMap inCell).foldl Monitor.see m = { m with received := m.received ++ bits } := by
  induction bits generalizing m with
  | nil => simp
  | cons b bits ih =>
    have cell : (inCell b).foldl Monitor.see m = { m with received := m.received ++ [b] } := by
      simp [inCell, Monitor.see, hs, hd]
    rw [List.flatMap_cons, List.foldl_append, cell]
    exact (ih (m := { m with received := m.received ++ [b] }) hs hd).trans (by simp)

/-- From any state, the pins of a transfer show the monitor its one frame (R100 to R106). -/
theorem see_xferPins (m : Monitor) (tx rx : List Byte) :
    ((xferPins tx rx).foldl Monitor.see m).seen = m.seen ++ [.frame tx rx] := by
  simp only [xferPins, selActive, flatMap_outByte, flatMap_inByte, List.foldl_append, List.foldl_cons, List.foldl_nil,
    Monitor.see, Bool.not_false]
  rw [see_outCells rfl rfl]
  dsimp only
  rw [see_inCells rfl rfl]
  simp [bytesOfBits_flatMap_bitsMsb]

/-- The pins of a frame-grain event show the monitor that event (R9). -/
theorem see_framePins (m : Monitor) (f : FrameEvent) :
    ((framePins f).foldl Monitor.see m).seen = m.seen ++ [f] := by
  cases f with
  | frame tx rx => exact see_xferPins m tx rx
  | power l => rfl

theorem see_flatMap_framePins (m : Monitor) (fs : List FrameEvent) :
    ((fs.flatMap framePins).foldl Monitor.see m).seen = m.seen ++ fs := by
  induction fs generalizing m with
  | nil => simp
  | cons f fs ih =>
    rw [List.flatMap_cons, List.foldl_append, ih, see_framePins, List.append_assoc, List.singleton_append]

/-- The frames can be read back from their pins. -/
theorem observe_flatMap_framePins (fs : List FrameEvent) : observe (fs.flatMap framePins) = fs :=
  see_flatMap_framePins Monitor.start fs

/-- Settles O40: the pins added are those of the frames added, and the monitor reads frames back from their pins. -/
theorem pinsCarryTheFrames : Obligations.PinsCarryTheFrames := by
  intro i s t h
  obtain ⟨fs, hf, hp⟩ := exec_emitted h
  exact ⟨_, fs, hp, hf, observe_flatMap_framePins fs⟩

end Sys2Proof.Safety

namespace Sys2Proof.Machine

/-! ## Register addresses -/

/-- The access with its address cut to the 17 bits a command word has room for (R52, R77). -/
def Access.cutAddr (a : Access) : Access := { a with addr := a.addr &&& 0x1FFFF#32 }

theorem accCmd_cutAddr (a : Access) : accCmd a.cutAddr = accCmd a := by
  simp only [accCmd, Access.cutAddr, cmdWord, BitVec.and_assoc, BitVec.and_self]

theorem accTx_cutAddr (a : Access) : accTx a.cutAddr = accTx a := by
  simp only [accTx, accCmd_cutAddr]
  rfl

theorem regAccess_cutAddr (a : Access) : regAccess a.cutAddr = regAccess a := by
  funext s
  simp only [regAccess, accCmd_cutAddr, accTx_cutAddr]
  rfl

/-- A register access depends on its address only through the command word (R225). -/
theorem performReg_cutAddr (check : Option Refusal) (a : Access) (res : List Byte → Result) (s : State) :
    performReg check a.cutAddr res s = performReg check a res s := by
  simp only [performReg, regAccess_cutAddr]
  rfl

/-- Settles O31: RDN and WRN are one register access each, under checks that do not read the address. -/
theorem registerAddressesAlias : Obligations.RegisterAddressesAlias := by
  intro s fn inc addr n b
  exact ⟨(performReg_cutAddr (checkReg fn n) (readAcc fn inc addr n) .bytes s).symm,
    (performReg_cutAddr (checkData n b (checkReg fn n)) (writeAcc fn inc addr n b) (fun _ => .none) s).symm⟩

/-! ## The request port -/

section
variable {s : State} {img : List Byte} {rest : List (List Byte)}

theorem fetch_request {i : Instr} (hq : s.requests = img :: rest) (hd : decode img = .ok i) :
    fetch s = .request i { s with requests := rest } := by
  simp only [fetch, hq, hd]

theorem fetch_bad {e : DecodeError} (hq : s.requests = img :: rest) (hd : decode img = .error e) :
    fetch s = .bad e := by
  simp only [fetch, hq, hd]

theorem fetch_nothing (hq : s.requests = []) : fetch s = .nothing := by
  simp only [fetch, hq]

end

/-- Settles O11, by what the idle block finds at its port. -/
theorem stepRunsTheDecodedRequest : Obligations.StepRunsTheDecodedRequest := by
  refine ⟨fun s img rest i hr hb hq hd => ?_, fun s img rest e hr hb hq hd => ?_, fun s hr hb hq => ?_⟩
  · simp [step, hr, hb, fetch_request hq hd]
  · simp [step, hr, hb, fetch_bad hq hd]
  · simp [step, hr, hb, fetch_nothing hq]

end Sys2Proof.Machine

/-! The image of a request (log 2): the byte codecs, the fields of the command word and the parts of an image, and
that the decoder and the encoder are inverse to each other. -/
namespace Sys2Proof
open Machine

/-! ## The byte codecs of an image (R123) -/

theorem fromLE16_toLE16 (v : BitVec 16) : fromLE16 (toLE16 v) = v := by
  ext k hk
  interval_cases k <;> simp [fromLE16, leTerm, toLE16, byteOf]

theorem fromLE32_toLE32 (v : Word) : fromLE32 (toLE32 v) = v := by
  ext k hk
  interval_cases k <;> simp [fromLE32, leTerm, toLE32, byteOf]

theorem byteOf_fromLE16 (a b : Byte) {i : Nat} (hi : i < 2) :
    byteOf (fromLE16 [a, b]) i = [a, b].getD i 0#8 := by
  ext k hk
  interval_cases i <;> interval_cases k <;> simp [fromLE16, leTerm, byteOf]

theorem byteOf_fromLE32 (a b c d : Byte) {i : Nat} (hi : i < 4) :
    byteOf (fromLE32 [a, b, c, d]) i = [a, b, c, d].getD i 0#8 := by
  ext k hk
  interval_cases i <;> interval_cases k <;> simp [fromLE32, leTerm, byteOf]

theorem fromLE8_toLE8 (v : Byte) : fromLE8 (toLE8 v) = v := by
  simp [fromLE8, leTerm, toLE8]

theorem toLE8_fromLE8 {l : List Byte} (h : l.length = 1) : toLE8 (fromLE8 l) = l := by
  obtain ⟨a, rfl⟩ := List.length_eq_one_iff.mp h
  simp [fromLE8, leTerm, toLE8]

theorem toLE16_fromLE16 {l : List Byte} (h : l.length = 2) : toLE16 (fromLE16 l) = l := by
  obtain ⟨a, b, rfl⟩ := List.length_eq_two.mp h
  simp [toLE16, byteOf_fromLE16]

theorem toLE32_fromLE32 {l : List Byte} (h : l.length = 4) : toLE32 (fromLE32 l) = l := by
  match l, h with
  | [a, b, c, d], _ => simp [toLE32, byteOf_fromLE32]

/-! ## The fields of a command word (R71, R126) -/

@[simp] theorem cmdDecode_cmdWord (w i : BitVec 1) (f : BitVec 2) (a n : Word) :
    cmdDecode (cmdWord w i f a n) =
      { write := w, inc := i, fn := f, addr := a.setWidth 17, len := n.setWidth 10 } := by
  simp only [cmdDecode, cmdWriteBit, cmdIncBit, cmdFnLsb, cmdAddrLsb, cmdLenLsb, CmdFields.mk.injEq]
  refine ⟨?_, ?_, ?_, ?_, ?_⟩ <;> refine BitVec.eq_of_getLsbD_eq fun k hk => ?_ <;>
    simp only [BitVec.getLsbD_extractLsb', cmdWord_getLsbD] <;> interval_cases k <;> simp

/-- A register address is read back from the word and extension A (R77). -/
theorem regAddrOf_cmdWord (w i : BitVec 1) (f : BitVec 2) (a n : Word) :
    regAddrOf (cmdWord w i f a n) (a >>> 17) = a := by
  ext k hk
  interval_cases k <;> simp [regAddrOf]

/-- A windowed address is read back from the word and extension A (R79). -/
theorem winAddrOf_cmdWord (w i : BitVec 1) (f : BitVec 2) (a n : Word) :
    winAddrOf (cmdWord w i f (winOffset a ||| 0x8000#32) n) (a >>> 15) = a := by
  ext k hk
  interval_cases k <;> simp [winAddrOf, winOffset]

/-- A length is read back from the word and extension N (R78). -/
theorem lenOf_cmdWord (w i : BitVec 1) (f : BitVec 2) (a n : Word) :
    lenOf (cmdWord w i f a n) (n >>> 10) = n := by
  ext k hk
  interval_cases k <;> simp [lenOf]

/-- The upper part of a word put together from two parts. -/
theorem shiftLeft_or_ushiftRight {x y : Word} {m : Nat} (hx : x >>> (32 - m) = 0#32) (hy : y >>> m = 0#32) :
    (x <<< m ||| y) >>> m = x := by
  rw [BitVec.ushiftRight_or_distrib, hy, BitVec.or_zero]
  refine BitVec.eq_of_getLsbD_eq fun k hk => ?_
  rw [BitVec.getLsbD_ushiftRight, BitVec.getLsbD_shiftLeft]
  by_cases hlow : m + k < 32
  · simp [hlow]
  · have hb := congrArg (fun v => v.getLsbD (k - (32 - m))) hx
    simp only [BitVec.getLsbD_ushiftRight, BitVec.getLsbD_zero] at hb
    rw [Nat.add_sub_cancel' (by omega)] at hb
    simp [hlow, hb]

theorem regAddrOf_ushiftRight (c : Word) {xa : Word} (h : xa >>> 15 = 0#32) : regAddrOf c xa >>> 17 = xa :=
  shiftLeft_or_ushiftRight h (by ext k hk; simp)

theorem winAddrOf_ushiftRight (c : Word) {xa : Word} (h : xa >>> 17 = 0#32) : winAddrOf c xa >>> 15 = xa :=
  shiftLeft_or_ushiftRight h (by ext k hk; interval_cases k <;> simp)

theorem lenOf_ushiftRight (c : Word) {xn : Word} (h : xn >>> 22 = 0#32) : lenOf c xn >>> 10 = xn :=
  shiftLeft_or_ushiftRight h (by ext k hk; simp)

/-! ## A word of a row's pattern is the command word of its own fields (R71, R72)

The fixed bits of the word are the pattern's, the free ones are those the decoder's fields are cut from. -/

/-- Two words of one pattern that agree on the pattern's free bits are equal. -/
theorem eq_of_pattern {x c mask pat : Word} (hx : x &&& mask = pat) (hc : c &&& mask = pat)
    (hfree : ∀ k < 32, mask.getLsbD k = false → x.getLsbD k = c.getLsbD k) : x = c := by
  refine BitVec.eq_of_getLsbD_eq fun k hk => ?_
  by_cases hm : mask.getLsbD k = true
  · simpa [hm] using congrArg (fun v => v.getLsbD k) (hx.trans hc.symm)
  · exact hfree k hk (by simpa using hm)

section
variable {c : Word} {w : BitVec 1} {n : Word} (xa xn : Word)

theorem cmdWord_of_registerN (h : c &&& 0x80000400#32 = cmdWord w 0#1 0#2 0#32 0#32) :
    cmdWord w (cmdDecode c).inc (cmdDecode c).fn (regAddrOf c xa) (lenOf c xn) = c := by
  refine eq_of_pattern (Laws.Pattern.mask_registerN ..) h fun k hk hfree => ?_
  rw [cmdWord_getLsbD]
  interval_cases k <;> simp_all [regAddrOf, lenOf, cmdDecode, cmdIncBit, cmdFnLsb, cmdAddrLsb, cmdLenLsb]

theorem cmdWord_of_register (h : c &&& 0xC00007FF#32 = cmdWord w 1#1 0#2 0#32 n) :
    cmdWord w 1#1 (cmdDecode c).fn (regAddrOf c xa) n = c := by
  refine eq_of_pattern (Laws.Pattern.mask_register ..) h fun k hk hfree => ?_
  rw [cmdWord_getLsbD]
  interval_cases k <;> simp_all [regAddrOf, cmdDecode, cmdFnLsb, cmdAddrLsb]

theorem cmdWord_of_windowN (h : c &&& 0xFC000400#32 = cmdWord w 1#1 1#2 0x8000#32 0#32) :
    cmdWord w 1#1 1#2 (winOffset (winAddrOf c xa) ||| 0x8000#32) (lenOf c xn) = c := by
  refine eq_of_pattern (Laws.Pattern.mask_windowN ..) h fun k hk hfree => ?_
  rw [cmdWord_getLsbD]
  interval_cases k <;> simp_all [winAddrOf, winOffset, lenOf, cmdDecode, cmdAddrLsb, cmdLenLsb]

theorem cmdWord_of_window (h : c &&& 0xFC0007FF#32 = cmdWord w 1#1 1#2 0x8000#32 n) :
    cmdWord w 1#1 1#2 (winOffset (winAddrOf c xa) ||| 0x8000#32) n = c := by
  refine eq_of_pattern (Laws.Pattern.mask_window ..) h fun k hk hfree => ?_
  rw [cmdWord_getLsbD]
  interval_cases k <;> simp_all [winAddrOf, winOffset, cmdDecode, cmdAddrLsb]

end

theorem cmdWord_of_setwin {c : Word} (h : c &&& 0xF00007FF#32 = 0xC0000001#32) (ha : (cmdDecode c).addr = 0#17) :
    cmdWord 1#1 1#1 0#2 0#32 1#32 = c := by
  refine eq_of_pattern (by decide) h fun k hk hfree => ?_
  have haddr := congrArg (fun v => v.getLsbD (k - 11)) ha
  simp only [cmdDecode, cmdAddrLsb, BitVec.getLsbD_extractLsb'] at haddr
  rw [cmdWord_getLsbD]
  interval_cases k <;> simp_all

/-! ## The checks of the decoder: when they pass, and what has then been checked -/

/-- A check before a part of the decoder passes. -/
theorem ite_error_eq_ok {p : Prop} [Decidable p] {r : Except DecodeError Instr} {e : DecodeError} {i : Instr} :
    (if p then r else .error e) = .ok i ↔ p ∧ r = .ok i := by
  split <;> simp_all

theorem ite_ok_eq_ok {p : Prop} [Decidable p] {i j : Instr} {e : DecodeError} :
    (if p then Except.ok i else .error e) = .ok j ↔ p ∧ i = j := by
  rw [ite_error_eq_ok, Except.ok.injEq]

@[simp] theorem noData_nil (r : Except DecodeError Instr) : noData [] r = r := rfl

theorem noData_eq_ok {data : List Byte} {r : Except DecodeError Instr} {i : Instr} :
    noData data r = .ok i ↔ data = [] ∧ r = .ok i :=
  ite_error_eq_ok

theorem dataOf_eq_ok {k : Nat} {data : List Byte} {r : Except DecodeError Instr} {i : Instr} :
    dataOf k data r = .ok i ↔ data.length = k ∧ r = .ok i :=
  ite_error_eq_ok

theorem regForm_eq_ok {k : Nat} {xa xn : Word} {i j : Instr} :
    regForm k xa xn i = .ok j ↔ xa >>> 15 = 0#32 ∧ xn >>> k = 0#32 ∧ i = j :=
  ite_ok_eq_ok.trans and_assoc

theorem winForm_eq_ok {k : Nat} {xa xn : Word} {i j : Instr} :
    winForm k xa xn i = .ok j ↔ xa >>> 17 = 0#32 ∧ xn >>> k = 0#32 ∧ i = j :=
  ite_ok_eq_ok.trans and_assoc

theorem rowMatches_iff {r : Row} {c : Word} : rowMatches r c = true ↔ c &&& rowMask r = rowMatch r :=
  beq_iff_eq

/-! ## Images and their parts -/

/-- The selector of a row names it (log 2). -/
theorem rowOf_rowSel {r : Row} {c : Word} (h : rowMatches r c = true) : rowOf c (rowSel r) = .ok r := by
  cases r <;> simp [rowOf, rowSel, allRows, h]

/-- Inversion of rowOf for an image with a selector. -/
theorem rowOf_eq_ok {r : Row} {c : Word} {sel : Byte} (hs : sel ≠ 0#8) (h : rowOf c sel = .ok r) :
    rowSel r = sel ∧ rowMatches r c = true := by
  unfold rowOf at h
  rw [if_neg hs] at h
  split at h
  next q hq =>
    split at h
    next hm =>
      obtain rfl : q = r := Except.ok.inj h
      exact ⟨by simpa using List.find?_some hq, hm⟩
    next => cases h
  next => cases h

/-- The decoder takes an image apart into its parts. -/
theorem decode_image {c : Word} {r : Row} (h : rowMatches r c = true) (xa xn : Word) (data : List Byte) :
    decode (image c r xa xn data) = decodeRow r c xa xn data := by
  have hword : ∀ v : Word, fromLE32 [byteOf v 0, byteOf v 1, byteOf v 2, byteOf v 3] = v := fromLE32_toLE32
  simp only [image, cmdBytes, toLE32, List.cons_append, List.nil_append, decode, hword, rowOf_rowSel h]

/-- Inversion of the decoder: an accepted image with a selector is made of a word of the named row's pattern, two
extensions and the value bytes. -/
theorem decode_eq_ok {img : List Byte} {i : Instr} (hs : img.getD 4 0#8 ≠ 0#8) (h : decode img = .ok i) :
    ∃ c r xa xn data, img = image c r xa xn data ∧ rowMatches r c = true ∧ decodeRow r c xa xn data = .ok i := by
  unfold decode at h
  split at h
  next c0 c1 c2 c3 sel a0 a1 a2 a3 n0 n1 n2 n3 data =>
    dsimp only at h
    split at h
    next r hr =>
      obtain ⟨rfl, hm⟩ := rowOf_eq_ok hs hr
      refine ⟨_, r, _, _, data, ?_, hm, h⟩
      simp [image, cmdBytes, toLE32_fromLE32]
    next => cases h
  next => cases h

/-- Every request's image begins with a word of its row's pattern. -/
theorem encode_pattern : ∀ i : Instr, Laws.Pattern.Statement i
  | .xfer tx wl rl => Laws.Pattern.xfer tx wl rl
  | .pwron => Laws.Pattern.pwron
  | .pwroff => Laws.Pattern.pwroff
  | .rdn fn inc a n => Laws.Pattern.rdn fn inc a n
  | .wrn fn inc a n b => Laws.Pattern.wrn fn inc a n b
  | .rd8 fn a => Laws.Pattern.rd8 fn a
  | .rd16 fn a => Laws.Pattern.rd16 fn a
  | .rd32 fn a => Laws.Pattern.rd32 fn a
  | .wr8 fn a v => Laws.Pattern.wr8 fn a v
  | .wr16 fn a v => Laws.Pattern.wr16 fn a v
  | .wr32 fn a v => Laws.Pattern.wr32 fn a v
  | .rd32s fn a => Laws.Pattern.rd32s fn a
  | .wr32s fn a v => Laws.Pattern.wr32s fn a v
  | .setwin a => Laws.Pattern.setwin a
  | .bprdn a n => Laws.Pattern.bprdn a n
  | .bpwrn a n b => Laws.Pattern.bpwrn a n b
  | .bprd8 a => Laws.Pattern.bprd8 a
  | .bprd16 a => Laws.Pattern.bprd16 a
  | .bprd32 a => Laws.Pattern.bprd32 a
  | .bpwr8 a v => Laws.Pattern.bpwr8 a v
  | .bpwr16 a v => Laws.Pattern.bpwr16 a v
  | .bpwr32 a v => Laws.Pattern.bpwr32 a v

/-- The decoder reads a request's image as the request's row. -/
theorem decode_encode_eq_decodeRow {i : Instr} {c xa xn : Word} {data : List Byte}
    (he : encode i = image c (Laws.Pattern.row i) xa xn data) :
    decode (encode i) = decodeRow (Laws.Pattern.row i) c xa xn data := by
  obtain ⟨d, htake, hm⟩ := encode_pattern i
  rw [he, Laws.Pattern.image_take] at htake
  obtain rfl := cmdBytes_inj (List.append_inj_left htake rfl)
  rw [he, decode_image hm]

/-! ## Decoding what was encoded -/

theorem ushiftRight_ushiftRight_eq_zero (v : Word) {m k : Nat} (h : 32 ≤ m + k) : v >>> m >>> k = 0#32 := by
  rw [← BitVec.shiftRight_add, BitVec.ushiftRight_eq_zero h]

theorem regForm_ushiftRight (a : Word) {k : Nat} {xn : Word} (h : xn >>> k = 0#32) (i : Instr) :
    regForm k (a >>> 17) xn i = .ok i :=
  regForm_eq_ok.mpr ⟨ushiftRight_ushiftRight_eq_zero a (by decide), h, rfl⟩

theorem winForm_ushiftRight (a : Word) {k : Nat} {xn : Word} (h : xn >>> k = 0#32) (i : Instr) :
    winForm k (a >>> 15) xn i = .ok i :=
  winForm_eq_ok.mpr ⟨ushiftRight_ushiftRight_eq_zero a (by decide), h, rfl⟩

/-- Settles O8, form by form: the parts of a request's image pass the row's checks and give its operands back. -/
theorem decodeInvertsEncode : Obligations.DecodeInvertsEncode := by
  intro i
  cases i with
  | xfer | pwron | pwroff | setwin => exact (decode_encode_eq_decodeRow rfl).trans rfl
  | rdn fn inc a n | wrn fn inc a n b =>
    have hn : n >>> 10 >>> 22 = 0#32 := ushiftRight_ushiftRight_eq_zero n (by decide)
    refine (decode_encode_eq_decodeRow rfl).trans ?_
    simp [Laws.Pattern.row, decodeRow, regForm_ushiftRight a hn, regAddrOf_cmdWord, lenOf_cmdWord]
  | rd8 fn a | rd16 fn a | rd32 fn a | rd32s fn a =>
    refine (decode_encode_eq_decodeRow rfl).trans ?_
    simp [Laws.Pattern.row, decodeRow, regForm_ushiftRight, regAddrOf_cmdWord]
  | wr8 fn a v | wr16 fn a v | wr32 fn a v | wr32s fn a v =>
    refine (decode_encode_eq_decodeRow rfl).trans (dataOf_eq_ok.mpr ⟨rfl, ?_⟩)
    simp [regForm_ushiftRight, regAddrOf_cmdWord, fromLE8_toLE8, fromLE16_toLE16, fromLE32_toLE32]
  | bprdn a n | bpwrn a n b =>
    have hn : n >>> 10 >>> 22 = 0#32 := ushiftRight_ushiftRight_eq_zero n (by decide)
    refine (decode_encode_eq_decodeRow rfl).trans ?_
    simp [Laws.Pattern.row, decodeRow, winForm_ushiftRight a hn, winAddrOf_cmdWord, lenOf_cmdWord]
  | bprd8 a | bprd16 a | bprd32 a =>
    refine (decode_encode_eq_decodeRow rfl).trans ?_
    simp [Laws.Pattern.row, decodeRow, winForm_ushiftRight, winAddrOf_cmdWord]
  | bpwr8 a v | bpwr16 a v | bpwr32 a v =>
    refine (decode_encode_eq_decodeRow rfl).trans (dataOf_eq_ok.mpr ⟨rfl, ?_⟩)
    simp [winForm_ushiftRight, winAddrOf_cmdWord, fromLE8_toLE8, fromLE16_toLE16, fromLE32_toLE32]

/-! ## Encoding what was decoded -/

section
variable {c xa xn : Word} {w : BitVec 1} {n : Word} (r : Row) (data : List Byte)

theorem regImage_eq_image_of_registerN (h : c &&& 0x80000400#32 = cmdWord w 0#1 0#2 0#32 0#32)
    (hxa : xa >>> 15 = 0#32) (hxn : xn >>> 22 = 0#32) :
    regImage r w (cmdDecode c).inc (cmdDecode c).fn (regAddrOf c xa) (lenOf c xn) (lenOf c xn >>> 10) data =
      image c r xa xn data := by
  rw [regImage, cmdWord_of_registerN xa xn h, regAddrOf_ushiftRight c hxa, lenOf_ushiftRight c hxn]

theorem regImage_eq_image_of_register (h : c &&& 0xC00007FF#32 = cmdWord w 1#1 0#2 0#32 n)
    (hxa : xa >>> 15 = 0#32) (hxn : xn >>> 0 = 0#32) :
    regImage r w 1#1 (cmdDecode c).fn (regAddrOf c xa) n 0#32 data = image c r xa xn data := by
  rw [regImage, cmdWord_of_register xa h, regAddrOf_ushiftRight c hxa, ← hxn, BitVec.ushiftRight_zero]

theorem winImage_eq_image_of_windowN (h : c &&& 0xFC000400#32 = cmdWord w 1#1 1#2 0x8000#32 0#32)
    (hxa : xa >>> 17 = 0#32) (hxn : xn >>> 22 = 0#32) :
    winImage r w (winAddrOf c xa) (lenOf c xn) (lenOf c xn >>> 10) data = image c r xa xn data := by
  rw [winImage, cmdWord_of_windowN xa xn h, winAddrOf_ushiftRight c hxa, lenOf_ushiftRight c hxn]

theorem winImage_eq_image_of_window (h : c &&& 0xFC0007FF#32 = cmdWord w 1#1 1#2 0x8000#32 n)
    (hxa : xa >>> 17 = 0#32) (hxn : xn >>> 0 = 0#32) :
    winImage r w (winAddrOf c xa) n 0#32 data = image c r xa xn data := by
  rw [winImage, cmdWord_of_window xa h, winAddrOf_ushiftRight c hxa, ← hxn, BitVec.ushiftRight_zero]

end

/-- What a row's decoder accepts is encoded as it was: the row's pattern and its checks leave no bit over. -/
theorem encode_of_decodeRow {r : Row} {c xa xn : Word} {data : List Byte} {i : Instr}
    (hm : rowMatches r c = true) (hd : decodeRow r c xa xn data = .ok i) : encode i = image c r xa xn data := by
  rw [rowMatches_iff] at hm
  cases r with
  | xfer =>
    obtain rfl := Except.ok.inj hd
    obtain rfl : c = 0#32 := BitVec.and_allOnes.symm.trans hm
    rfl
  | pwron | pwroff =>
    obtain ⟨rfl, hd⟩ := noData_eq_ok.mp hd
    obtain ⟨⟨rfl, rfl⟩, rfl⟩ := ite_ok_eq_ok.mp hd
    obtain rfl : c = 0#32 := BitVec.and_allOnes.symm.trans hm
    rfl
  | setwin =>
    obtain ⟨rfl, hd⟩ := noData_eq_ok.mp hd
    obtain ⟨⟨ha, rfl⟩, rfl⟩ := ite_ok_eq_ok.mp hd
    exact congrArg (image · .setwin xa 0#32 []) (cmdWord_of_setwin hm ha)
  | rdn =>
    obtain ⟨rfl, hd⟩ := noData_eq_ok.mp hd
    obtain ⟨hxa, hxn, rfl⟩ := regForm_eq_ok.mp hd
    exact regImage_eq_image_of_registerN _ _ hm hxa hxn
  | wrn =>
    obtain ⟨hxa, hxn, rfl⟩ := regForm_eq_ok.mp hd
    exact regImage_eq_image_of_registerN _ _ hm hxa hxn
  | rd8 | rd16 | rd32 | rd32s =>
    obtain ⟨rfl, hd⟩ := noData_eq_ok.mp hd
    obtain ⟨hxa, hxn, rfl⟩ := regForm_eq_ok.mp hd
    exact regImage_eq_image_of_register _ _ hm hxa hxn
  | wr8 | wr16 | wr32 | wr32s =>
    obtain ⟨hlen, hd⟩ := dataOf_eq_ok.mp hd
    obtain ⟨hxa, hxn, rfl⟩ := regForm_eq_ok.mp hd
    simp only [encode, toLE8_fromLE8, toLE16_fromLE16, toLE32_fromLE32, hlen]
    exact regImage_eq_image_of_register _ _ hm hxa hxn
  | bprdn =>
    obtain ⟨rfl, hd⟩ := noData_eq_ok.mp hd
    obtain ⟨hxa, hxn, rfl⟩ := winForm_eq_ok.mp hd
    exact winImage_eq_image_of_windowN _ _ hm hxa hxn
  | bpwrn =>
    obtain ⟨hxa, hxn, rfl⟩ := winForm_eq_ok.mp hd
    exact winImage_eq_image_of_windowN _ _ hm hxa hxn
  | bprd8 | bprd16 | bprd32 =>
    obtain ⟨rfl, hd⟩ := noData_eq_ok.mp hd
    obtain ⟨hxa, hxn, rfl⟩ := winForm_eq_ok.mp hd
    exact winImage_eq_image_of_window _ _ hm hxa hxn
  | bpwr8 | bpwr16 | bpwr32 =>
    obtain ⟨hlen, hd⟩ := dataOf_eq_ok.mp hd
    obtain ⟨hxa, hxn, rfl⟩ := winForm_eq_ok.mp hd
    simp only [encode, toLE8_fromLE8, toLE16_fromLE16, toLE32_fromLE32, hlen]
    exact winImage_eq_image_of_window _ _ hm hxa hxn

/-- Settles O9: an accepted image is taken apart, and its parts are those of the encoder. -/
theorem acceptedImagesAreCanonical : Obligations.AcceptedImagesAreCanonical := by
  intro img i hs hd
  obtain ⟨c, r, xa, xn, data, rfl, hm, hrow⟩ := decode_eq_ok hs hd
  exact encode_of_decodeRow hm hrow

/-! ## Words of the operation table (R90, R93) -/

/-- Settles O10: each of the six words is decoded by evaluation. -/
theorem tableWordsDecode : Obligations.TableWordsDecode :=
  ⟨rfl, rfl, rfl, rfl, rfl, rfl⟩

end Sys2Proof

/-! One transfer by ticks (R101, R103 to R106): the bytes of SHIFT_OUT and SHIFT_IN, the way from SELECT to RELEASE
with its clock pulses (R231), and the state the release of select leaves. -/
namespace Sys2Proof.Machine
open Safety

/-! ## What the bytes of a transfer leave in the latches -/

@[simp] theorem lastDriven_nil (d : Bool) : lastDriven [] d = d := rfl

@[simp] theorem lastDriven_concat (tx : List Byte) (b : Byte) (d : Bool) : lastDriven (tx ++ [b]) d = b.getLsbD 0 := by
  simp [lastDriven]

@[simp] theorem lastShifted_nil (v : Byte) : lastShifted [] [] v = v := rfl

/-- Each byte sent leaves SHREG empty (R13). -/
@[simp] theorem lastShifted_concat_nil (tx : List Byte) (b v : Byte) : lastShifted (tx ++ [b]) [] v = 0#8 := by
  simp [lastShifted]

@[simp] theorem lastShifted_concat (tx rx : List Byte) (b v : Byte) : lastShifted tx (rx ++ [b]) v = b := by
  simp [lastShifted]

/-- Sending and then receiving: SHREG is as the whole transfer leaves it (R13). -/
theorem lastShifted_nil_lastShifted (tx rx : List Byte) (v : Byte) :
    lastShifted [] rx (lastShifted tx [] v) = lastShifted tx rx v := by
  unfold lastShifted
  cases rx.getLast? <;> rfl

/-! ## The bytes -/

/-- Sixteen ticks a byte send the first n bytes of TXBUF (R104). -/
theorem outBytes_ticks {s : State} (hp : s.phase = .shiftOut) (hc : s.clk = false) (hbyte : s.byteCnt = 0)
    (hbit : s.bitCnt = 7#3) {n : Nat} (hn : n ≤ s.txbuf.length) :
    ticks (16 * n) s =
      { s with
        shreg := lastShifted (s.txbuf.take n) [] s.shreg, dout := lastDriven (s.txbuf.take n) s.dout, byteCnt := n
        pins := s.pins ++ (s.txbuf.take n).flatMap outByte } := by
  induction n with
  | zero => simpa [ticks] using congrArg (fun k => { s with byteCnt := k }) hbyte
  | succ n ih =>
    have hlt : n < s.txbuf.length := hn
    rw [Nat.mul_succ, ticks_add, ih hlt.le, outByte_ticks]
    · simp [List.take_add_one, hlt, -List.take_append_getElem]
    all_goals assumption

/-- Sixteen ticks a byte receive the first n bytes (R106). -/
theorem inBytes_ticks {s : State} (hp : s.phase = .shiftIn) (hc : s.clk = false) (hbyte : s.byteCnt = 0)
    (hbit : s.bitCnt = 7#3) {n : Nat} (hn : n ≤ s.rxLen) :
    ticks (16 * n) s =
      { s with
        shreg := lastShifted [] (drawBytes s.chipBits s.drawCount n) s.shreg
        rxbuf := s.rxbuf ++ drawBytes s.chipBits s.drawCount n
        drawCount := s.drawCount + 8 * n, byteCnt := n
        pins := s.pins ++ (drawBytes s.chipBits s.drawCount n).flatMap inByte } := by
  induction n with
  | zero => simpa [ticks] using congrArg (fun k => { s with byteCnt := k }) hbyte
  | succ n ih =>
    have hlt : n < s.rxLen := hn
    rw [Nat.mul_succ, ticks_add, ih hlt.le, inByte_ticks]
    · simp [drawBytes_succ, Nat.mul_succ, Nat.add_assoc]
    all_goals assumption

/-! ## From SELECT to RELEASE -/

/-- SHIFT_OUT entered at its first bit is left for TURN with TXBUF sent (R101, R104). -/
theorem shiftOut_reaches_turn {s : State} (hp : s.phase = .shiftOut) (hc : s.clk = false) (hbyte : s.byteCnt = 0)
    (hbit : s.bitCnt = 7#3) :
    Reaches s { s with
      phase := .turn, byteCnt := 0, bitCnt := 0#3
      shreg := lastShifted s.txbuf [] s.shreg, dout := lastDriven s.txbuf s.dout
      pins := s.pins ++ s.txbuf.flatMap outByte } := by
  refine ⟨16 * s.txbuf.length + 1, ?_⟩
  rw [ticks_add, outBytes_ticks hp hc hbyte hbit le_rfl]
  simp [ticks, tick, hp, tickShiftOut]

/-- SHIFT_IN entered at its first bit is left for RELEASE with as many bytes received as asked for (R101, R106). -/
theorem shiftIn_reaches_release {s : State} (hp : s.phase = .shiftIn) (hc : s.clk = false) (hbyte : s.byteCnt = 0)
    (hbit : s.bitCnt = 7#3) :
    Reaches s { s with
      phase := .release, byteCnt := 0, bitCnt := 0#3
      shreg := lastShifted [] (drawBytes s.chipBits s.drawCount s.rxLen) s.shreg
      rxbuf := s.rxbuf ++ drawBytes s.chipBits s.drawCount s.rxLen, drawCount := s.drawCount + 8 * s.rxLen
      pins := s.pins ++ (drawBytes s.chipBits s.drawCount s.rxLen).flatMap inByte } := by
  refine ⟨16 * s.rxLen + 1, ?_⟩
  rw [ticks_add, inBytes_ticks hp hc hbyte hbit le_rfl]
  simp [ticks, tick, hp, tickShiftIn]

/-- The pin events of a transfer before select is released (R103 to R106). -/
def shiftPins (tx rx : List Byte) : List PinEvent :=
  [.sel selActive, .ddir .out] ++ tx.flatMap outByte ++ [.ddir .in] ++ rx.flatMap inByte

theorem xferPins_eq_shiftPins (tx rx : List Byte) : xferPins tx rx = shiftPins tx rx ++ [.sel (!selActive)] := rfl

/-- The state in RELEASE of the transfer s is about to start. -/
def releaseState (s : State) : State :=
  let rx := drawBytes s.chipBits s.drawCount s.rxLen
  { s with
    sel := selActive, ddir := .in, dout := lastDriven s.txbuf s.dout, shreg := lastShifted s.txbuf rx s.shreg
    phase := .release, byteCnt := 0, bitCnt := 0#3
    rxbuf := s.rxbuf ++ rx, drawCount := s.drawCount + 8 * s.rxLen, pins := s.pins ++ shiftPins s.txbuf rx }

/-- A transfer goes from SELECT to RELEASE with every byte out and every byte in (R101). -/
theorem select_reaches_release {s : State} (hp : s.phase = .select) (hc : s.clk = false) :
    Reaches s (releaseState s) := by
  have hselect : Reaches s (tickSelect s) := ⟨1, by simp [ticks, tick, hp]⟩
  have hout := shiftOut_reaches_turn (s := tickSelect s) rfl hc rfl rfl
  have h := (hselect.trans hout).trans
    ((Reaches.one _).trans (shiftIn_reaches_release (s := tickTurn _) rfl hc rfl rfl))
  simpa [tickSelect, tickTurn, releaseState, shiftPins, lastShifted_nil_lastShifted] using h

/-! ## Clock pulses -/

@[simp] theorem pulses_append (ps qs : List PinEvent) : pulses (ps ++ qs) = pulses ps + pulses qs :=
  List.countP_append

theorem pulses_outByte (b : Byte) : pulses (outByte b) = 8 := rfl

theorem pulses_inByte (b : Byte) : pulses (inByte b) = 8 := rfl

/-- Eight clock pulses a byte make eight times as many over all bytes (R231). -/
theorem pulses_flatMap {f : Byte → List PinEvent} (hf : ∀ b, pulses (f b) = 8) (bs : List Byte) :
    pulses (bs.flatMap f) = 8 * bs.length := by
  induction bs with
  | nil => rfl
  | cons b bs ih => rw [List.flatMap_cons, pulses_append, hf, ih, List.length_cons, Nat.mul_succ, Nat.add_comm]

theorem pulses_shiftPins (tx rx : List Byte) : pulses (shiftPins tx rx) = 8 * (tx.length + rx.length) := by
  have hselect : pulses [.sel selActive, .ddir .out] = 0 := rfl
  have hturn : pulses [.ddir .in] = 0 := rfl
  simp only [shiftPins, pulses_append, pulses_flatMap pulses_outByte, pulses_flatMap pulses_inByte, hselect, hturn]
  omega

/-- Settles O39: the ticks from SELECT end in releaseState, whose pin events are counted byte by byte. -/
theorem transferReachesRelease : Obligations.TransferReachesRelease := by
  intro s hp hc
  obtain ⟨k, hk⟩ := select_reaches_release hp hc
  refine ⟨k, shiftPins s.txbuf (drawBytes s.chipBits s.drawCount s.rxLen), by rw [hk]; rfl, by rw [hk]; rfl, ?_⟩
  rw [pulses_shiftPins, drawBytes_length]

/-! ## A whole transfer -/

/-- What the release of select leaves of a transfer asked for in a free bit sequencer: XFER's own effect (R100), its
read length still latched. -/
def xferState (tx : List Byte) (rl : Nat) (s : State) : State := { xfer tx rl s with rxLen := rl }

/-- RELEASE ends the frame; a register access goes on to RA_STRIP (R101, R140). -/
theorem startXfer_reaches_strip {s : State} (hc : s.clk = false) (hra : s.raPhase = .raXfer) (tx : List Byte)
    (rl : Nat) : Reaches (startXfer tx rl s) { xferState tx rl s with raPhase := .raStrip } := by
  refine (select_reaches_release (s := startXfer tx rl s) rfl hc).trans ⟨1, ?_⟩
  simp [ticks, tick, tickRelease, releaseState, startXfer, xferState, xfer, hra, hc, clkIdle, xferPins_eq_shiftPins]

/-- RELEASE ends the frame; a raw transfer has its result (R100, R101). -/
theorem startXfer_reaches_result {s : State} (hc : s.clk = false) (hra : s.raPhase ≠ .raXfer) (tx : List Byte)
    (rl : Nat) :
    Reaches (startXfer tx rl s)
      { xferState tx rl s with result := .bytes (drawBytes s.chipBits s.drawCount rl) } := by
  refine (select_reaches_release (s := startXfer tx rl s) rfl hc).trans ⟨1, ?_⟩
  simp [ticks, tick, tickRelease, releaseState, startXfer, xferState, xfer, hra, hc, clkIdle, xferPins_eq_shiftPins]

end Sys2Proof.Machine

/-! The sequencers, tick by tick, implement the requests (R101, R108, R140, R172, D22): each shape of request is followed
from its acceptance to the completion of its big step. -/
namespace Sys2Proof.Machine
open Safety

/-! ## Completion -/

/-- A state in which every sequencer is idle completes with the result at its port (R15). -/
theorem idle_reaches_complete {s : State} (hp : s.phase = .idle) (hra : s.raPhase = .idle) (hbw : s.bwPhase = .idle) :
    Reaches s (complete s.result s) :=
  ⟨1, by simp [ticks, tick, hp, tickRegister, hra, tickWindow, hbw]⟩

/-! ## One register access -/

/-- RA_ENCODE starts the transfer of the access latched, which ends in RA_STRIP (R140). -/
theorem encode_reaches_strip {s : State} {a : Access} (hp : s.phase = .idle) (hra : s.raPhase = .raEncode)
    (ha : s.acc = some a) (hc : s.clk = false) :
    Reaches s { regAccess a s with rxLen := accRl a, raPhase := .raStrip } := by
  have hencode : Reaches s (startXfer (accTx a) (accRl a) { s with cmd := accCmd a, raPhase := .raXfer }) :=
    ⟨1, by simp [ticks, tick, hp, tickRegister, hra, tickEncode, ha]⟩
  exact hencode.trans (startXfer_reaches_strip (s := { s with cmd := accCmd a, raPhase := .raXfer }) hc rfl _ _)

/-- RA_ENCODE of the access of a request, with no window byte left to write: the request completes with what
RA_STRIP decodes (R140, R172). -/
theorem encode_reaches_complete {s : State} {i : Instr} {a : Access} (hp : s.phase = .idle)
    (hra : s.raPhase = .raEncode) (hq : s.req = some i) (ha : s.acc = some a) (hc : s.clk = false)
    (hbw : s.bwPhase = .idle ∨ s.bwPhase = .bwAccess) :
    Reaches s (complete (resultOf (accStrip a (regAccess a s).rxbuf) i) (regAccess a s)) := by
  have hstrip : tick { regAccess a s with rxLen := accRl a, raPhase := .raStrip } =
      { regAccess a s with
        rxLen := accRl a, raPhase := .idle, bwPhase := .idle
        result := resultOf (accStrip a (regAccess a s).rxbuf) i } := by
    rcases hbw with hbw | hbw <;> simp [tick, tickRegister, tickStrip, stripResult, hbw, hq, ha]
  exact (encode_reaches_strip hp hra ha hc).trans (Reaches.trans ⟨1, hstrip⟩ (idle_reaches_complete rfl rfl rfl))

/-! ## The window sequencer -/

/-- s with the request i in progress and the window sequencer at p, the inner sequencers idle. What the last register
access left in its latches, acc and rl, may be anything. -/
def windowState (i : Instr) (acc : Option Access) (rl : Nat) (p : Phase) (s : State) : State :=
  { s with
    busy := true, phase := .idle, raPhase := .idle, bwPhase := p, byteCnt := 0, bitCnt := 0#3
    req := some i, acc := acc, rxLen := rl, result := .none }

/-- The request i at window phase p over s comes by ticks to window phase q over t. -/
def WindowMoves (i : Instr) (p : Phase) (s : State) (q : Phase) (t : State) : Prop :=
  ∀ acc rl, ∃ acc' rl', Reaches (windowState i acc rl p s) (windowState i acc' rl' q t)

theorem WindowMoves.trans {i : Instr} {p q r : Phase} {s t u : State} (h : WindowMoves i p s q t)
    (k : WindowMoves i q t r u) : WindowMoves i p s r u := fun acc rl =>
  have ⟨acc', rl', h'⟩ := h acc rl
  have ⟨acc'', rl'', k'⟩ := k acc' rl'
  ⟨acc'', rl'', h'.trans k'⟩

/-- One window byte (R171, R172, R183): if it differs its register is written and the byte cached, else the sequencer
moves on at once. -/
theorem windowMoves_compare {i : Instr} {p q : Phase} {s : State} {diff : Bool} {reg : BitVec 17} {v : Byte}
    (cache : State → State) (hc : s.clk = false)
    (hcompare : ∀ acc rl, tick (windowState i acc rl p s) = tickCompare diff reg v q (windowState i acc rl p s))
    (hstrip : ∀ acc rl, tick { windowState i acc rl p (regAccess (winRegAcc reg v) s) with raPhase := .raStrip } =
      windowState i acc rl q (cache (regAccess (winRegAcc reg v) s))) :
    WindowMoves i p s q (if diff then cache (regAccess (winRegAcc reg v) s) else s) := by
  intro acc rl
  cases diff with
  | false => exact ⟨acc, rl, 1, hcompare acc rl⟩
  | true =>
    have hwrite := encode_reaches_strip (a := winRegAcc reg v)
      (s := { windowState i (some (winRegAcc reg v)) rl p s with raPhase := .raEncode }) rfl rfl rfl hc
    exact ⟨some (winRegAcc reg v), 0, Reaches.trans ⟨1, hcompare acc rl⟩ (hwrite.trans ⟨1, hstrip _ 0⟩)⟩

/-- The phase behind BW_LOW of a request (R172). -/
def phaseAfterLow (cfg : Params) (i : Instr) : Phase := if (accessOf cfg i).isSome then .bwAccess else .idle

theorem afterLow_of_req {s : State} {i : Instr} (hq : s.req = some i) : afterLow s = phaseAfterLow s.cfg i := by
  cases ha : accessOf s.cfg i with
  | none => rw [afterLow_of_no_access hq ha, phaseAfterLow, ha]; rfl
  | some b => rw [afterLow_of_access hq ha, phaseAfterLow, ha]; rfl

/-- Every operation of a transfer leaves the clock low (R103). -/
theorem clk_low_kept : KeptByFrames fun s => s.clk = false where
  setBusy _ h := h
  complete _ _ h := h
  xfer _ _ _ _ := rfl
  regAccess _ _ _ := rfl
  cacheHigh _ _ h := h
  cacheMed _ _ h := h
  cacheLow _ _ h := h

section
variable {i : Instr} {a : Word} {s : State} (hw : windowOf i = some a) (hc : s.clk = false)
include hw

theorem windowTarget_of_req (hq : s.req = some i) : windowTarget s = a := by
  simp [windowTarget, hq, hw]

include hc

theorem windowMoves_high : WindowMoves i .bwHigh s .bwMed (winStepHigh a s) :=
  windowMoves_compare (cacheHigh (highByte a)) hc
    (fun _ _ => by simp only [tick, tickRegister, tickWindow, windowState, windowTarget_of_req hw]; rfl)
    (fun _ _ => by simp only [tick, tickRegister, tickStrip, windowState, windowTarget_of_req hw]; rfl)

theorem windowMoves_med : WindowMoves i .bwMed s .bwLow (winStepMed a s) :=
  windowMoves_compare (cacheMed (medByte a)) hc
    (fun _ _ => by simp only [tick, tickRegister, tickWindow, windowState, windowTarget_of_req hw]; rfl)
    (fun _ _ => by simp only [tick, tickRegister, tickStrip, windowState, windowTarget_of_req hw]; rfl)

theorem windowMoves_low : WindowMoves i .bwLow s (phaseAfterLow s.cfg i) (winStepLow a s) :=
  windowMoves_compare (cacheLow (lowByte a)) hc
    (fun _ _ => by
      simp only [tick, tickRegister, tickWindow, windowState, windowTarget_of_req hw, afterLow_of_req (i := i)]; rfl)
    (fun _ _ => by
      simp only [tick, tickRegister, tickStrip, windowState, windowTarget_of_req hw, afterLow_of_req (i := i)]; rfl)

/-- SETWIN by ticks (R171, R172): the three bytes in order, then BW_ACCESS or IDLE. -/
theorem windowMoves_setWindow : WindowMoves i .bwHigh s (phaseAfterLow s.cfg i) (setWindow a s) := by
  have hcHigh := clk_low_kept.winStepHigh a hc
  have hlow := windowMoves_low hw (clk_low_kept.winStepMed a hcHigh)
  rw [((winStepHigh_keeps a s).trans (winStepMed_keeps a _)).cfg] at hlow
  exact (windowMoves_high hw hc).trans ((windowMoves_med hw hcHigh).trans hlow)

end

/-! ## From acceptance to completion -/

/-- The state a request leaves that completes from s. -/
def doneState (i : Instr) (s : State) : State :=
  complete (answerOf s.cfg i (bodyOf s.cfg i (setBusy s))) (bodyOf s.cfg i (setBusy s))

/-- PWRON after its first tick: the line is low, the first wait is over, PW_SETTLE comes next (R108). -/
def pwronLowState (s : State) : State :=
  { s with
    busy := true, req := some .pwron, acc := none, result := .none, phase := .pwSettle, pwr := false
    frames := s.frames ++ [.power false], pins := s.pins ++ [.power false], delays := s.delays ++ [tPwrLowMin] }

/-- PWRON after its second tick: the line is high, the second wait is over, completion comes next (R108). -/
def pwronHighState (s : State) : State :=
  { s with
    busy := true, req := some .pwron, acc := none, result := .none, phase := .idle, pwr := true
    frames := s.frames ++ [.power false] ++ [.power true], pins := s.pins ++ [.power false] ++ [.power true]
    delays := s.delays ++ [tPwrLowMin] ++ [tPwrSettleMin] }

theorem tick_accept_pwron (s : State) : tick (accept .pwron s) = pwronLowState s := rfl

theorem tick_pwronLowState (s : State) : tick (pwronLowState s) = pwronHighState s := rfl

theorem doneState_pwron (s : State) : doneState .pwron s = complete .none (pwronHighState s) := rfl

section
variable {i : Instr} {a : Access} {w : Word} {s : State}

/-- A register request is accepted into RA_ENCODE (R140). -/
theorem accept_register (hw : windowOf i = none) (ha : accessOf s.cfg i = some a) :
    accept i s = { setBusy s with req := some i, acc := some a, result := .none, raPhase := .raEncode } := by
  cases i <;> simp_all [accept, windowOf, accessOf]

variable (hrest : IdleAtRest s) (hb : s.busy = false)
include hrest hb

/-- A request of the window family is accepted into BW_HIGH (R172). -/
theorem accept_windowed (hw : windowOf i = some w) : accept i s = windowState i none 0 .bwHigh (setBusy s) := by
  obtain ⟨hp, hra, -, hbyte, hbit, -, -, hrl⟩ := hrest hb
  cases i <;> simp_all [accept, windowOf, windowState]

theorem pwron_reaches_done : Reaches (accept .pwron s) (doneState .pwron s) := by
  obtain ⟨-, hra, hbw, -⟩ := hrest hb
  have hhigh : Reaches (accept .pwron s) (pwronHighState s) :=
    ⟨2, by rw [ticks, ticks, ticks, tick_accept_pwron, tick_pwronLowState]⟩
  exact hhigh.trans (idle_reaches_complete (s := pwronHighState s) rfl hra hbw)

theorem pwroff_reaches_done : Reaches (accept .pwroff s) (doneState .pwroff s) := by
  obtain ⟨-, hra, hbw, -⟩ := hrest hb
  have hlow : Reaches (accept .pwroff s) { setPower false (accept .pwroff s) with phase := .idle } := .one _
  exact hlow.trans (idle_reaches_complete rfl hra hbw)

variable (hc : s.clk = false)
include hc

theorem xfer_reaches_done (tx : List Byte) (wl rl : Word) :
    Reaches (accept (.xfer tx wl rl) s) (doneState (.xfer tx wl rl) s) := by
  obtain ⟨-, hra, hbw, -⟩ := hrest hb
  have hresult := startXfer_reaches_result
    (s := { setBusy s with req := some (.xfer tx wl rl), acc := none, result := .none }) hc (by simp [hra])
    (tx.take wl.toNat) rl.toNat
  exact hresult.trans (idle_reaches_complete rfl hra hbw)

theorem register_reaches_done (hw : windowOf i = none) (ha : accessOf s.cfg i = some a) :
    Reaches (accept i s) (doneState i s) := by
  obtain ⟨hp, -, hbw, -⟩ := hrest hb
  rw [accept_register hw ha, doneState, bodyOf_register ha hw, answerOf_access ha]
  exact encode_reaches_complete hp rfl rfl rfl hc (.inl hbw)

/-- A request of the window family comes through SETWIN; a windowed access then goes through BW_ACCESS (R172). -/
theorem windowed_reaches_done (hw : windowOf i = some w) : Reaches (accept i s) (doneState i s) := by
  obtain ⟨acc, rl, hset⟩ := windowMoves_setWindow (s := setBusy s) hw hc none 0
  rw [accept_windowed hrest hb hw]
  refine hset.trans ?_
  have hcSet : (setWindow w (setBusy s)).clk = false := clk_low_kept.setWindow w hc
  have hcfg : (setWindow w (setBusy s)).cfg = s.cfg := (setWindow_keeps w _).cfg
  cases ha : accessOf s.cfg i with
  | none =>
    rw [show phaseAfterLow (setBusy s).cfg i = .idle by simp [phaseAfterLow, ha]]
    have hdone : doneState i s = complete .none (setWindow w (setBusy s)) := by
      rw [doneState, bodyOf_setwin ha hw]
      cases i <;> simp_all [answerOf, accessOf, windowOf]
    rw [hdone]
    exact idle_reaches_complete rfl rfl rfl
  | some a =>
    rw [show phaseAfterLow (setBusy s).cfg i = .bwAccess by simp [phaseAfterLow, ha]]
    have haccess : tick (windowState i acc rl .bwAccess (setWindow w (setBusy s))) =
        { windowState i (some a) rl .bwAccess (setWindow w (setBusy s)) with raPhase := .raEncode } := by
      simp [tick, tickRegister, tickWindow, tickAccess, windowState, hcfg, ha]
    rw [doneState, bodyOf_windowed ha hw, answerOf_access ha]
    exact Reaches.trans ⟨1, haccess⟩ (encode_reaches_complete rfl rfl rfl rfl hcSet (.inr rfl))

end

/-- Settles O37: each shape of request comes by ticks to the state of its big step. -/
theorem ticksRefineTheRequest : Obligations.TicksRefineTheRequest := by
  intro i s t hinv he
  obtain ⟨hb, -, rfl⟩ := exec_next he
  obtain ⟨hp, -⟩ := hinv.rest hb
  obtain ⟨-, hc, -⟩ := hinv.busAtRest (by rw [hp]; rfl)
  change Reaches (accept i s) (doneState i s)
  cases hw : windowOf i with
  | some w => exact windowed_reaches_done hinv.rest hb hc hw
  | none =>
    cases ha : accessOf s.cfg i with
    | some a => exact register_reaches_done hinv.rest hb hc hw ha
    | none =>
      cases i with
      | xfer tx wl rl => exact xfer_reaches_done hinv.rest hb hc tx wl rl
      | pwron => exact pwron_reaches_done hinv.rest hb
      | pwroff => exact pwroff_reaches_done hinv.rest hb
      | setwin a => cases hw
      | _ => cases ha

end Sys2Proof.Machine

/-! The bit-transport requests themselves (R100 to R110): what XFER, PWRON and PWROFF leave when they complete. -/
namespace Sys2Proof.Safety
open Machine

/-- Completion emits nothing. -/
theorem Emitted.complete {s t : State} {fs : List FrameEvent} (h : Emitted s t fs) (r : Result) :
    Emitted s (complete r t) fs := h

end Sys2Proof.Safety

namespace Sys2Proof.Machine
open Safety

/-! ## The frame of a request -/

/-- One transfer inside a request: its frame, at both grains, and what it leaves alone (R100). -/
theorem xfer_frameRequest (tx : List Byte) (rl : Nat) (s : State) :
    FrameRequest s (complete (.bytes (drawBytes s.chipBits s.drawCount rl)) (xfer tx rl (setBusy s))) tx
      (drawBytes s.chipBits s.drawCount rl) (.bytes (drawBytes s.chipBits s.drawCount rl)) :=
  ⟨⟨rfl, by simp [framePins]⟩, by simp [Supplied], rfl, ⟨rfl, rfl, rfl, rfl⟩, ⟨rfl, rfl, rfl, rfl, rfl, rfl⟩,
    ⟨rfl, rfl, rfl⟩, complete_over _ _⟩

/-- XFER completes from a free block inside its envelope (R102). -/
theorem exec_xfer {s : State} {tx : List Byte} {wl rl : Word} (hb : s.busy = false) (hwl : wl.toNat ≤ tx.length)
    (hrl : rl.toNat ≤ s.cfg.xferMax) : exec (.xfer tx wl rl) s = .next (doneState (.xfer tx wl rl) s) :=
  exec_completes hb (checkXfer_none.mpr ⟨by simpa [sendOk] using hwl, hrl⟩)

/-- Settles O17: XFER is one transfer of the first wl bytes. -/
theorem transferMovesOneFrame : Obligations.TransferMovesOneFrame := by
  intro s tx wl rl hb hwl hrl
  exact ⟨_, drawBytes s.chipBits s.drawCount rl.toNat, exec_xfer hb hwl hrl, drawBytes_length _ _ _,
    xfer_frameRequest _ _ s, rfl, rfl⟩

/-! ## The power line -/

theorem exec_pwron {s : State} (hb : s.busy = false) : exec .pwron s = .next (complete .none (pwronHighState s)) := by
  rw [← doneState_pwron]; exact exec_completes hb rfl

theorem exec_pwroff {s : State} (hb : s.busy = false) :
    exec .pwroff s = .next (complete .none (setPower false (setBusy s))) :=
  exec_completes hb rfl

/-- Settles O18: PWRON completes in the state its two ticks lead to. -/
theorem powerOnCyclesThePowerLine : Obligations.PowerOnCyclesThePowerLine := by
  intro s hb
  have hlow : Emitted s (pwronLowState s) [.power false] := ⟨rfl, rfl⟩
  have hhigh : Emitted s (pwronHighState s) [.power false, .power true] :=
    ⟨List.append_assoc _ _ _, List.append_assoc _ _ _⟩
  have hdelays : (pwronHighState s).delays = s.delays ++ [20, 250] := List.append_assoc _ _ _
  refine ⟨complete .none (pwronHighState s), exec_pwron hb, rfl, hhigh.complete .none,
    (complete_delays _ _).trans hdelays, rfl, complete_over _ _, ⟨rfl, rfl, rfl, rfl⟩, ⟨rfl, rfl, rfl, rfl⟩, ?_⟩
  exact ⟨pwronLowState s, pwronHighState s, tick_accept_pwron s, rfl, rfl, rfl, hlow, rfl,
    tick_pwronLowState s, rfl, rfl, rfl, hhigh, hdelays⟩

/-- Settles O19: PWROFF completes with the line low, and a transfer is not checked against the line. -/
theorem powerOffDropsThePowerLine : Obligations.PowerOffDropsThePowerLine := by
  intro s hb
  exact ⟨_, exec_pwroff hb, rfl, ⟨rfl, rfl⟩, rfl, rfl, complete_over _ _, ⟨rfl, rfl, rfl, rfl⟩, ⟨rfl, rfl, rfl, rfl⟩,
    ⟨rfl, rfl, rfl, rfl⟩, rfl, rfl, rfl, rfl, rfl, fun _ _ _ hwl hrl => ⟨_, exec_xfer rfl hwl hrl⟩⟩

/-- Settles O20: what PWRON and PWROFF leave differs from what they found in PWR, the latches of completion and the
traces alone. -/
theorem powerRequestsTouchNothingElse : Obligations.PowerRequestsTouchNothingElse := by
  rintro i s t (rfl | rfl) he <;> obtain ⟨hb, -⟩ := exec_next he
  · obtain rfl : complete .none (pwronHighState s) = t := by simpa [exec_pwron hb] using he
    exact ⟨⟨rfl, rfl, rfl, rfl⟩, ⟨rfl, rfl, rfl, rfl⟩, ⟨rfl, rfl, rfl, rfl⟩, rfl, rfl, rfl, rfl, rfl, rfl⟩
  · obtain rfl : complete .none (setPower false (setBusy s)) = t := by simpa [exec_pwroff hb] using he
    exact ⟨⟨rfl, rfl, rfl, rfl⟩, ⟨rfl, rfl, rfl, rfl⟩, ⟨rfl, rfl, rfl, rfl⟩, rfl, rfl, rfl, rfl, rfl, rfl⟩

end Sys2Proof.Machine

/-! A busy block runs to completion (R101, R195): every tick that does not drop BUSY leaves less work, whatever the latches
hold (log 25). -/
namespace Sys2Proof.Machine
open Safety

/-! ## The work left -/

/-- How many phases the window sequencer has before it (R172). -/
def windowRank : Phase → Nat
  | .bwHigh => 4
  | .bwMed => 3
  | .bwLow => 2
  | .bwAccess => 1
  | _ => 0

/-- How many phases the bit or power sequencer has before it (R101, R108). -/
def bitRank : Phase → Nat
  | .select => 5
  | .shiftOut => 4
  | .turn => 3
  | .shiftIn => 2
  | .release => 1
  | .pwLow => 2
  | .pwSettle => 1
  | _ => 0

/-- A phase of a transfer, select asserted or about to be (R101). -/
def transferring : Phase → Bool
  | .select => true
  | p => selectedPhase p

/-- Where the register-access sequencer stands while it is at rest: before an access for a window byte or for BW_ACCESS,
or at the end of its request. -/
def restRank (bw : Phase) : Nat := if windowRank bw = 0 then 0 else 4

/-- Where the register-access sequencer stands in one access (R140): RA_ENCODE with no access latched goes to rest, a
latched one through RA_XFER to RA_STRIP. RA_XFER with no transfer under way counts as rest (log 25). -/
def registerRank (s : State) : Nat :=
  match s.raPhase with
  | .raEncode => if s.acc = none then 5 else 3
  | .raXfer => if transferring s.phase then 2 else restRank s.bwPhase
  | .raStrip => 1
  | _ => restRank s.bwPhase

/-- The clock edges left of a shift phase that moves n bytes (R104, R106). -/
def edgesLeft (n : Nat) (s : State) : Nat :=
  2 * (8 * (n - s.byteCnt) + s.bitCnt.toNat) + if s.clk then 0 else 1

/-- The clock edges left of the shift phase s is in. -/
def shiftLeft (s : State) : Nat :=
  match s.phase with
  | .shiftOut => edgesLeft s.txbuf.length s
  | .shiftIn => edgesLeft s.rxLen s
  | _ => 0

/-- The work left, outermost sequencer first. -/
def workLeft (s : State) : Nat ×ₗ Nat ×ₗ Nat ×ₗ Nat :=
  toLex (windowRank s.bwPhase, toLex (registerRank s, toLex (bitRank s.phase, shiftLeft s)))

section
variable {s t : State}

/-- The window sequencer goes on to a later phase. -/
theorem workLeft_lt_of_window {p : Phase} (q : Phase) (hs : s.bwPhase = p) (hq : t.bwPhase = q)
    (h : windowRank q < windowRank p) : workLeft t < workLeft s := by
  subst hs hq
  simp [workLeft, Prod.Lex.toLex_lt_toLex, h]

theorem workLeft_lt_of_registerRank (hbw : windowRank t.bwPhase = windowRank s.bwPhase)
    (h : registerRank t < registerRank s) : workLeft t < workLeft s := by
  simp [workLeft, Prod.Lex.toLex_lt_toLex, hbw, h]

theorem workLeft_lt_of_bitRank (hbw : t.bwPhase = s.bwPhase) (hra : registerRank t = registerRank s)
    (h : bitRank t.phase < bitRank s.phase) : workLeft t < workLeft s := by
  simp [workLeft, Prod.Lex.toLex_lt_toLex, hbw, hra, h]

/-- The register-access sequencer sees of the bit sequencer only whether a transfer is under way. -/
theorem registerRank_congr (hra : t.raPhase = s.raPhase) (hbw : t.bwPhase = s.bwPhase) (ha : t.acc = s.acc)
    (ht : transferring t.phase = transferring s.phase) : registerRank t = registerRank s := by
  simp [registerRank, hra, hbw, ha, ht]

/-- The bit or power sequencer goes on to its next phase. -/
theorem workLeft_lt_of_phase {p : Phase} (q : Phase) (hs : s.phase = p) (hq : t.phase = q) (hbw : t.bwPhase = s.bwPhase)
    (hra : t.raPhase = s.raPhase) (ha : t.acc = s.acc) (ht : transferring q = transferring p)
    (h : bitRank q < bitRank p) : workLeft t < workLeft s := by
  subst hs hq
  exact workLeft_lt_of_bitRank hbw (registerRank_congr hra hbw ha ht) h

/-- A clock edge in a shift phase. -/
theorem workLeft_lt_of_edge (hp : t.phase = s.phase) (hbw : t.bwPhase = s.bwPhase) (hra : t.raPhase = s.raPhase)
    (ha : t.acc = s.acc) (h : shiftLeft t < shiftLeft s) : workLeft t < workLeft s := by
  simp [workLeft, Prod.Lex.toLex_lt_toLex, hbw, registerRank_congr hra hbw ha (by rw [hp]), hp, h]

theorem shiftLeft_of_shiftOut (hp : s.phase = .shiftOut) : shiftLeft s = edgesLeft s.txbuf.length s := by
  simp [shiftLeft, hp]

theorem shiftLeft_of_shiftIn (hp : s.phase = .shiftIn) : shiftLeft s = edgesLeft s.rxLen s := by
  simp [shiftLeft, hp]

/-- A clock edge is one edge less: the clock rises in a bit cell, or falls at its end (R104, R106). -/
theorem edgesLeft_rise {n : Nat} (hs : s.clk = false) (ht : t.clk = true) (hbyte : t.byteCnt = s.byteCnt)
    (hbit : t.bitCnt = s.bitCnt) : edgesLeft n t < edgesLeft n s := by
  simp [edgesLeft, hs, ht, hbyte, hbit]

theorem edgesLeft_fall {n : Nat} (hlt : s.byteCnt < n) (hs : s.clk = true) (ht : t.clk = false)
    (hbyte : t.byteCnt = nextByteCnt s) (hbit : t.bitCnt = s.bitCnt - 1#3) : edgesLeft n t < edgesLeft n s := by
  simp only [edgesLeft, hs, ht, hbyte, hbit, nextByteCnt]
  by_cases h0 : s.bitCnt = 0#3
  · simp [h0]; omega
  · have hpos : (s.bitCnt - 1#3).toNat + 1 = s.bitCnt.toNat := by
      have hne : s.bitCnt.toNat ≠ 0 := fun h => h0 (BitVec.eq_of_toNat_eq h)
      bv_omega
    simp [h0]; omega

end

/-! ## Every tick leaves less -/

section
variable {s : State}

theorem workLeft_tickShiftOut (hp : s.phase = .shiftOut) : workLeft (tickShiftOut s) < workLeft s := by
  unfold tickShiftOut
  split
  next hlt =>
    split
    next hc =>
      refine workLeft_lt_of_edge rfl rfl rfl rfl ?_
      rw [shiftLeft_of_shiftOut hp, shiftLeft_of_shiftOut (s := outFall s) hp]
      exact edgesLeft_fall hlt hc rfl rfl rfl
    next hc =>
      refine workLeft_lt_of_edge rfl rfl rfl rfl ?_
      rw [shiftLeft_of_shiftOut hp, shiftLeft_of_shiftOut (s := outRise s) hp]
      exact edgesLeft_rise (Bool.eq_false_iff.mpr hc) rfl rfl rfl
  next => exact workLeft_lt_of_phase .turn hp rfl rfl rfl rfl rfl (by decide)

theorem workLeft_tickShiftIn (hp : s.phase = .shiftIn) : workLeft (tickShiftIn s) < workLeft s := by
  unfold tickShiftIn
  split
  next hlt =>
    split
    next hc =>
      refine workLeft_lt_of_edge rfl rfl rfl rfl ?_
      rw [shiftLeft_of_shiftIn hp, shiftLeft_of_shiftIn (s := inFall s) hp]
      exact edgesLeft_fall hlt hc rfl rfl rfl
    next hc =>
      refine workLeft_lt_of_edge rfl rfl rfl rfl ?_
      rw [shiftLeft_of_shiftIn hp, shiftLeft_of_shiftIn (s := inRise s) hp]
      exact edgesLeft_rise (Bool.eq_false_iff.mpr hc) rfl rfl rfl
  next => exact workLeft_lt_of_phase .release hp rfl rfl rfl rfl rfl (by decide)

theorem workLeft_tickRelease (hp : s.phase = .release) : workLeft (tickRelease s) < workLeft s := by
  unfold tickRelease
  dsimp only
  split
  next hra => exact workLeft_lt_of_registerRank rfl (by simp [registerRank, hra, hp, transferring, selectedPhase])
  next hra =>
    refine workLeft_lt_of_bitRank rfl ?_ (by simp [bitRank, hp])
    cases hx : s.raPhase <;> simp_all [registerRank]

theorem workLeft_tickPwLow (hp : s.phase = .pwLow) : workLeft (tickPwLow s) < workLeft s := by
  unfold tickPwLow
  split
  · exact workLeft_lt_of_phase .pwSettle hp rfl rfl rfl rfl rfl (by decide)
  · exact workLeft_lt_of_phase .idle hp rfl rfl rfl rfl rfl (by decide)

theorem workLeft_tickEncode (hra : s.raPhase = .raEncode) : workLeft (tickEncode s) < workLeft s := by
  unfold tickEncode
  split
  next a ha =>
    exact workLeft_lt_of_registerRank rfl (by simp [registerRank, startXfer, hra, ha, transferring])
  next ha =>
    refine workLeft_lt_of_registerRank rfl ?_
    simp only [registerRank, hra, ha, restRank]
    split <;> decide

theorem windowRank_afterLow (s : State) : windowRank (afterLow s) < windowRank .bwLow := by
  unfold afterLow
  split <;> decide

theorem workLeft_tickStrip (hra : s.raPhase = .raStrip) : workLeft (tickStrip s) < workLeft s := by
  unfold tickStrip
  dsimp only
  split
  next hbw => exact workLeft_lt_of_window .bwMed hbw rfl (by decide)
  next hbw => exact workLeft_lt_of_window .bwLow hbw rfl (by decide)
  next hbw => exact workLeft_lt_of_window (afterLow s) hbw rfl (windowRank_afterLow s)
  next =>
    rcases Nat.eq_zero_or_pos (windowRank s.bwPhase) with h0 | hpos
    · exact workLeft_lt_of_registerRank h0.symm (by simp [registerRank, hra, restRank, windowRank])
    · exact workLeft_lt_of_window .idle rfl rfl hpos

/-- From rest in a phase of the window sequencer, an access latched for RA_ENCODE is progress. -/
theorem workLeft_lt_of_latched {t : State} {a : Access} (hr : registerRank s = restRank s.bwPhase)
    (hpos : 0 < windowRank s.bwPhase) (hbw : t.bwPhase = s.bwPhase) (hra : t.raPhase = .raEncode)
    (ha : t.acc = some a) : workLeft t < workLeft s := by
  refine workLeft_lt_of_registerRank (by rw [hbw]) ?_
  rw [hr, restRank, if_neg hpos.ne']
  simp [registerRank, hra, ha]

/-- The window sequencer in a phase of its own runs a register access or moves on (R172). -/
theorem workLeft_tickCompare {diff : Bool} {reg : BitVec 17} {v : Byte} {p q : Phase}
    (hr : registerRank s = restRank s.bwPhase) (hbw : s.bwPhase = p) (hq : windowRank q < windowRank p) :
    workLeft (tickCompare diff reg v q s) < workLeft s := by
  unfold tickCompare
  split
  · exact workLeft_lt_of_latched hr (by rw [hbw]; exact Nat.zero_lt_of_lt hq) rfl rfl rfl
  · exact workLeft_lt_of_window q hbw rfl hq

theorem workLeft_tickAccess (hr : registerRank s = restRank s.bwPhase) (hbw : s.bwPhase = .bwAccess) :
    workLeft (tickAccess s) < workLeft s := by
  unfold tickAccess
  split
  · exact workLeft_lt_of_latched hr (by rw [hbw]; decide) rfl rfl rfl
  · exact workLeft_lt_of_window .idle hbw rfl (by decide)

theorem tickWindow_progress (hr : registerRank s = restRank s.bwPhase) :
    (tickWindow s).busy = false ∨ workLeft (tickWindow s) < workLeft s := by
  unfold tickWindow
  dsimp only
  split
  next hbw => exact .inr (workLeft_tickCompare hr hbw (by decide))
  next hbw => exact .inr (workLeft_tickCompare hr hbw (by decide))
  next hbw => exact .inr (workLeft_tickCompare hr hbw (windowRank_afterLow s))
  next hbw => exact .inr (workLeft_tickAccess hr hbw)
  next => exact .inl rfl

theorem tickRegister_progress (hp : transferring s.phase = false) :
    (tickRegister s).busy = false ∨ workLeft (tickRegister s) < workLeft s := by
  unfold tickRegister
  split
  next hra => exact .inr (workLeft_tickEncode hra)
  next hra => exact .inr (workLeft_tickStrip hra)
  next =>
    refine tickWindow_progress ?_
    cases hra : s.raPhase <;> simp_all [registerRank]

/-- Every tick drops BUSY or leaves less work, in every state. -/
theorem tick_progress (s : State) : (tick s).busy = false ∨ workLeft (tick s) < workLeft s := by
  unfold tick
  split
  next hp => exact .inr (workLeft_lt_of_phase .shiftOut hp rfl rfl rfl rfl rfl (by decide))
  next hp => exact .inr (workLeft_tickShiftOut hp)
  next hp => exact .inr (workLeft_lt_of_phase .shiftIn hp rfl rfl rfl rfl rfl (by decide))
  next hp => exact .inr (workLeft_tickShiftIn hp)
  next hp => exact .inr (workLeft_tickRelease hp)
  next hp => exact .inr (workLeft_tickPwLow hp)
  next hp => exact .inr (workLeft_lt_of_phase .idle hp rfl rfl rfl rfl rfl (by decide))
  next hsel hout hturn hin hrel _ _ =>
    refine tickRegister_progress ?_
    cases hp : s.phase <;> simp_all [transferring, selectedPhase]

end

/-! ## Steps of a busy block -/

/-- The first step of a busy block is a tick (R193). -/
theorem run_succ_of_busy {s : State} (hb : s.busy = true) (hr : s.resetIn = false) (k : Nat) :
    Host.Core.run Sys2Proof.core (k + 1) s = Host.Core.run Sys2Proof.core k (tick s) := by
  have htick : step s = .next (tick s) := by simp [step, hb, hr]
  have hstep : Sys2Proof.core.step s = .next (tick s) := htick
  simp [Host.Core.run, hstep]

/-- Settles O38: induction on the work left. -/
theorem busyBlockRunsToCompletion : Obligations.BusyBlockRunsToCompletion := by
  intro s
  induction s using (InvImage.wf workLeft wellFounded_lt).induction with
  | h s ih =>
    intro hb hr
    cases ht : (tick s).busy with
    | false => exact ⟨1, tick s, run_succ_of_busy hb hr 0, ht⟩
    | true =>
      have hlt : workLeft (tick s) < workLeft s := (tick_progress s).resolve_left (by simp [ht])
      obtain ⟨k, t, hrun, hfree⟩ := ih (tick s) hlt ht ((tick_keeps s).resetIn.trans hr)
      exact ⟨k + 1, t, (run_succ_of_busy hb hr k).trans hrun, hfree⟩

end Sys2Proof.Machine

/-! The command word and the byte codecs as numbers and as byte sequences (R120 to R124, R126): a value placed at a bit
position adds its multiple of a power of two, bit by bit the word is its fields, and the codecs are read byte by byte. -/
namespace Sys2Proof.Machine

/-! ## A value placed at a bit position -/

section
variable {m w k : Nat}

theorem toNat_placed (y : BitVec m) (h : m + k ≤ w) : (y.setWidth w <<< k).toNat = y.toNat * 2 ^ k := by
  have hy : y.toNat * 2 ^ k < 2 ^ w :=
    calc y.toNat * 2 ^ k < 2 ^ m * 2 ^ k := Nat.mul_lt_mul_of_pos_right y.isLt (Nat.two_pow_pos k)
      _ = 2 ^ (m + k) := (pow_add 2 m k).symm
      _ ≤ 2 ^ w := Nat.pow_le_pow_right two_pos h
  rw [BitVec.toNat_shiftLeft, BitVec.toNat_setWidth_of_le (by omega), Nat.shiftLeft_eq, Nat.mod_eq_of_lt hy]

/-- A value placed above all the bits of a word is added to it. -/
theorem toNat_or_placed_of_lt {x : BitVec w} {s : Nat} (y : BitVec m) (h : m + k ≤ w) (hx : x.toNat = s)
    (hs : s < 2 ^ k) : (x ||| y.setWidth w <<< k).toNat = s + y.toNat * 2 ^ k := by
  rw [BitVec.toNat_or, toNat_placed y h, hx, Nat.or_comm, Nat.mul_comm, ← Nat.two_pow_add_eq_or_of_lt hs, Nat.add_comm]

/-- A value placed below all the bits of a word is added to it. -/
theorem toNat_or_placed_of_dvd {x : BitVec w} {s : Nat} (y : BitVec m) (h : m + k ≤ w) (hx : x.toNat = s)
    (hs : 2 ^ (m + k) ∣ s) : (x ||| y.setWidth w <<< k).toNat = s + y.toNat * 2 ^ k := by
  obtain ⟨c, rfl⟩ := hs
  have hy : y.toNat * 2 ^ k < 2 ^ (m + k) := by
    rw [pow_add]
    exact Nat.mul_lt_mul_of_pos_right y.isLt (Nat.two_pow_pos k)
  rw [BitVec.toNat_or, toNat_placed y h, hx, Nat.two_pow_add_eq_or_of_lt hy]

end

/-! ## CMDWORD and CMDDECODE (R120, R126) -/

/-- The mask of an address is the cut to 17 bits (R120). -/
theorem and_addrMask (a : Word) : a &&& 0x1FFFF#32 = (a.setWidth 17).setWidth 32 := by
  ext k hk
  interval_cases k <;> simp

/-- The mask of a length is the cut to 10 bits (R120). -/
theorem and_lenMask (n : Word) : n &&& 0x3FF#32 = (n.setWidth 10).setWidth 32 := by
  ext k hk
  interval_cases k <;> simp

/-- The fields are disjoint, so the word is their sum (R120). -/
theorem cmdWord_toNat (w i : BitVec 1) (f : BitVec 2) (a n : Word) :
    (cmdWord w i f a n).toNat =
      w.toNat * 2 ^ 31 + i.toNat * 2 ^ 30 + f.toNat * 2 ^ 28 + (a.toNat % 2 ^ 17) * 2 ^ 11 + n.toNat % 2 ^ 10 := by
  have hw : (w.setWidth 32 <<< 31).toNat = w.toNat * 2 ^ 31 := toNat_placed w (by decide)
  have hi := toNat_or_placed_of_dvd i (k := 30) (by decide) hw (by omega)
  have hf := toNat_or_placed_of_dvd f (k := 28) (by decide) hi (by omega)
  have ha := toNat_or_placed_of_dvd (a.setWidth 17) (k := 11) (by decide) hf (by omega)
  have hn := toNat_or_placed_of_dvd (n.setWidth 10) (k := 0) (by decide) ha (by omega)
  simpa [cmdWord, and_addrMask, and_lenMask, cmdWriteBit, cmdIncBit, cmdFnLsb, cmdAddrLsb, cmdLenLsb] using hn

/-- Bits of an address above 16 and of a length above 9 are dropped (R77, R120). -/
theorem cmdWord_masked (w i : BitVec 1) (f : BitVec 2) (a n : Word) :
    cmdWord w i f (a &&& 0x1FFFF#32) (n &&& 0x3FF#32) = cmdWord w i f a n := by
  simp only [cmdWord, BitVec.and_assoc, BitVec.and_self]

/-- The mask of a command word clears bit 10 alone (R72). -/
theorem wordMask_getLsbD {k : Nat} (hk : k < 32) : (0xFFFFFBFF#32).getLsbD k = decide (k ≠ 10) := by
  interval_cases k <;> rfl

theorem and_wordMask_eq_iff (c : Word) : c &&& 0xFFFFFBFF#32 = c ↔ c.getLsbD 10 = false := by
  constructor
  · intro h
    rw [← h, BitVec.getLsbD_and, wordMask_getLsbD (by decide)]
    simp
  · intro h
    refine BitVec.eq_of_getLsbD_eq fun k hk => ?_
    rw [BitVec.getLsbD_and, wordMask_getLsbD hk]
    by_cases h10 : k = 10
    · rw [h10, h, Bool.false_and]
    · simp [h10]

/-- Packing the fields of a word gives the word back, but for bit 10, which no field holds (R126). -/
theorem cmdWord_cmdDecode (c : Word) :
    cmdWord (cmdDecode c).write (cmdDecode c).inc (cmdDecode c).fn ((cmdDecode c).addr.setWidth 32)
      ((cmdDecode c).len.setWidth 32) = c &&& 0xFFFFFBFF#32 := by
  refine BitVec.eq_of_getLsbD_eq fun k hk => ?_
  rw [cmdWord_getLsbD, BitVec.getLsbD_and, wordMask_getLsbD hk]
  interval_cases k <;> simp [cmdDecode, cmdWriteBit, cmdIncBit, cmdFnLsb, cmdAddrLsb, cmdLenLsb]

/-- Settles O1: the word is the sum of its disjoint fields, and bit by bit there is none at bit 10. -/
theorem commandWordPacksTheFields : Obligations.CommandWordPacksTheFields := by
  refine ⟨cmdWord_toNat, fun w i f a n => ?_, fun w i f a n => (cmdWord_masked w i f a n).symm,
    fun w i f a => ?_, by decide, by decide, by decide⟩
  · rw [cmdWord_getLsbD]
    simp
  · exact congrArg CmdFields.len (cmdDecode_cmdWord w i f a 0#32)

/-- Settles O2: decoding reads the fields off the word's bits, and packing them back loses bit 10 alone. -/
theorem commandWordRoundTrip : Obligations.CommandWordRoundTrip := by
  refine ⟨fun _ => rfl, fun w i f a n => ?_, cmdWord_cmdDecode, and_wordMask_eq_iff, by decide⟩
  rw [← cmdWord_masked, cmdDecode_cmdWord]

/-! ## The bytes of a value (R121, R123) -/

theorem byteOf_eq_extractLsb' {w : Nat} (v : BitVec w) (i : Nat) : byteOf v i = v.extractLsb' (8 * i) 8 :=
  BitVec.setWidth_ushiftRight_eq_extractLsb

/-- A byte of a value is the shifted value under the mask 0xFF (R123). -/
theorem byteOf_eq_masked {w : Nat} (v : BitVec w) (i : Nat) (hw : 8 ≤ w) :
    byteOf v i = (v >>> (8 * i) &&& 0xFF#w).setWidth 8 := by
  have hmask : 0xFF#8 = BitVec.allOnes 8 := by decide
  rw [BitVec.setWidth_and, BitVec.setWidth_ofNat_of_le hw, hmask, BitVec.and_allOnes, byteOf]

theorem toLE16_getElem? (v : BitVec 16) {i : Nat} (hi : i < 2) : (toLE16 v)[i]? = some (byteOf v i) := by
  interval_cases i <;> rfl

theorem toLE32_getElem? (v : Word) {i : Nat} (hi : i < 4) : (toLE32 v)[i]? = some (byteOf v i) := by
  interval_cases i <;> rfl

theorem leTerm_toNat {w : Nat} (b : List Byte) (i : Nat) (h : 8 + 8 * i ≤ w) :
    (leTerm w b i).toNat = (b.getD i 0#8).toNat * 2 ^ (8 * i) :=
  toNat_placed _ h

/-- The term of byte i is added to a sum of the bytes before it (R123). -/
theorem toNat_or_leTerm {w s : Nat} {x : BitVec w} (b : List Byte) (i : Nat) (h : 8 + 8 * i ≤ w) (hx : x.toNat = s)
    (hs : s < 2 ^ (8 * i)) : (x ||| leTerm w b i).toNat = s + (b.getD i 0#8).toNat * 2 ^ (8 * i) :=
  toNat_or_placed_of_lt _ h hx hs

theorem fromLE8_toNat (b : List Byte) : (fromLE8 b).toNat = (b.getD 0 0#8).toNat := by
  rw [fromLE8, leTerm_toNat b 0 le_rfl, Nat.mul_zero, pow_zero, Nat.mul_one]

theorem fromLE16_toNat (b : List Byte) :
    (fromLE16 b).toNat = (b.getD 0 0#8).toNat + (b.getD 1 0#8).toNat * 2 ^ 8 := by
  have h0 := leTerm_toNat (w := 16) b 0 (by decide)
  have h1 := toNat_or_leTerm b 1 (by decide) h0 (by omega)
  simpa [fromLE16] using h1

theorem fromLE32_toNat (b : List Byte) :
    (fromLE32 b).toNat = (b.getD 0 0#8).toNat + (b.getD 1 0#8).toNat * 2 ^ 8 + (b.getD 2 0#8).toNat * 2 ^ 16 +
      (b.getD 3 0#8).toNat * 2 ^ 24 := by
  have h0 := leTerm_toNat (w := 32) b 0 (by decide)
  have h1 := toNat_or_leTerm b 1 (by decide) h0 (by omega)
  have h2 := toNat_or_leTerm b 2 (by decide) h1 (by omega)
  have h3 := toNat_or_leTerm b 3 (by decide) h2 (by omega)
  simpa [fromLE32] using h3

/-- Settles O3: byte i of a word is its bits from 8i upwards. -/
theorem commandBytesAreLittleEndian : Obligations.CommandBytesAreLittleEndian := by
  refine ⟨fun c => ?_, fun _ => rfl, by decide⟩
  simp [cmdBytes, toLE32, byteOf_eq_extractLsb']

/-- Settles O5: toLE is read byte by byte, and fromLE is the weighted sum of its terms. -/
theorem littleEndianCodecs : Obligations.LittleEndianCodecs := by
  refine ⟨fun v => ⟨rfl, fromLE8_toLE8 v⟩, fun v => ⟨rfl, fun i hi => ?_, fromLE16_toLE16 v⟩,
    fun v => ⟨rfl, fun i hi => ?_, fromLE32_toLE32 v⟩, fun a rest => fromLE8_toNat (a :: rest),
    fun a b rest => fromLE16_toNat (a :: b :: rest), fun a b c d rest => fromLE32_toNat (a :: b :: c :: d :: rest),
    by decide, by decide⟩
  · rw [toLE16_getElem? v hi, byteOf_eq_masked v i (by decide)]
  · rw [toLE32_getElem? v hi, byteOf_eq_masked v i (by decide)]

/-! ## SWAP16 (R122) -/

/-- Exclusive or with 1 acts on bit 0 alone, so it commutes with a shift by four. -/
theorem add_four_xor_one (i : Nat) : (i + 4) ^^^ 1 = (i ^^^ 1) + 4 := by
  rcases Nat.even_or_odd i with h | h
  · rw [Nat.xor_one_of_even h, Nat.xor_one_of_even (h.add (by decide)), Nat.add_right_comm]
  · rw [Nat.xor_one_of_odd h, Nat.xor_one_of_odd (h.add_even (by decide))]
    have hpos := h.pos
    omega

/-- SWAP16 is its own inverse, on a sequence of any length. -/
theorem swap16_swap16 : ∀ b : List Byte, swap16 (swap16 b) = b
  | [] => rfl
  | [_] => rfl
  | [_, _] => rfl
  | [_, _, _] => rfl
  | _ :: _ :: _ :: _ :: rest => by simp [swap16, swap16_swap16 rest]

/-- Output byte i is input byte i XOR 1, group of four by group of four (R122). -/
theorem swap16_getElem? : ∀ b : List Byte, 4 ∣ b.length → ∀ i, (swap16 b)[i]? = b[i ^^^ 1]?
  | [], _, _ => rfl
  | [_], h, _ => absurd h (by simp)
  | [_, _], h, _ => absurd h (by simp)
  | [_, _, _], h, _ => absurd h (by simp)
  | _ :: _ :: _ :: _ :: _, _, 0 => rfl
  | _ :: _ :: _ :: _ :: _, _, 1 => rfl
  | _ :: _ :: _ :: _ :: _, _, 2 => rfl
  | _ :: _ :: _ :: _ :: _, _, 3 => rfl
  | _ :: _ :: _ :: _ :: rest, h, i + 4 => by
    rw [add_four_xor_one]
    exact swap16_getElem? rest ((Nat.dvd_add_left (dvd_refl 4)).mp h) i

/-- Settles O4, by recursion over the groups of four bytes. -/
theorem swapExchangesBytePairs : Obligations.SwapExchangesBytePairs :=
  ⟨fun _ _ _ _ => rfl, fun b hb => ⟨swap16_length b, fun i _ => swap16_getElem? b hb i⟩,
    fun b _ => swap16_swap16 b, rfl, rfl⟩

/-! ## roundUp4 (R124) -/

theorem dvd_roundUp4 (n : Nat) : 4 ∣ roundUp4 n := Nat.dvd_mul_right 4 ((n + 3) / 4)

theorem roundUp4_le {n m : Nat} (hm : 4 ∣ m) (h : n ≤ m) : roundUp4 n ≤ m := by unfold roundUp4; omega

theorem roundUp4_of_dvd {n : Nat} (h : 4 ∣ n) : roundUp4 n = n := le_antisymm (roundUp4_le h le_rfl) (roundUp4_ge n)

/-- Settles O6: roundUp4 is n + 3 without its remainder modulo 4. -/
theorem roundUpToFour : Obligations.RoundUpToFour :=
  ⟨fun n => ⟨dvd_roundUp4 n, roundUp4_ge n, fun _ => roundUp4_le⟩,
    fun n => ⟨Nat.mul_comm 4 ((n + 3) / 4), Nat.div_add_mod (n + 3) 4⟩, fun _ => roundUp4_of_dvd,
    rfl, rfl, rfl, rfl, rfl, rfl⟩

end Sys2Proof.Machine

/-! The register-access requests themselves (R73 to R75, R140 to R151): each is one register access; a read drops the pad
of what it received, a write receives nothing. -/
namespace Sys2Proof.Machine
open Safety

/-! ## The envelope in numbers -/

/-- The envelope of a register access (R82, R83, R153). -/
theorem checkReg_eq_none_iff {fn : BitVec 2} {n : Word} :
    checkReg fn n = none ↔ (fn = 0#2 ∨ fn = 1#2) ∧ 1 ≤ n.toNat ∧ n.toNat ≤ 1023 := by
  have hpos : lenPos n = true ↔ 1 ≤ n.toNat := bne_iff_ne.trans (by bv_omega)
  have hfits : lenFits n = true ↔ n.toNat ≤ 1023 := decide_eq_true_iff
  rw [checkReg_none, ← hpos, ← hfits]
  simp [regInEnvelope, fnOk, and_assoc]

/-- The lengths of the width helpers are inside the envelope of either function (R143 to R150). -/
theorem checkReg_widths {fn : BitVec 2} (hfn : fn = 0#2 ∨ fn = 1#2) :
    checkReg fn 1#32 = none ∧ checkReg fn 2#32 = none ∧ checkReg fn 4#32 = none :=
  ⟨checkReg_eq_none_iff.mpr ⟨hfn, by decide, by decide⟩, checkReg_eq_none_iff.mpr ⟨hfn, by decide, by decide⟩,
    checkReg_eq_none_iff.mpr ⟨hfn, by decide, by decide⟩⟩

/-- Enough data leaves the verdict to the earlier checks (R153). -/
theorem checkData_of_le {n : Word} {b : List Byte} (h : n.toNat ≤ b.length) (earlier : Option Refusal) :
    checkData n b earlier = earlier := by
  cases earlier <;> simp [checkData, dataOk, h]

/-! ## One register access as a request -/

/-- The bytes that come back to an access begun in state s, the pad included (R30, R73). -/
def accReceived (a : Access) (s : State) : List Byte := drawBytes s.chipBits s.drawCount (accRl a)

theorem accReceived_length (a : Access) (s : State) : (accReceived a s).length = accRl a := drawBytes_length _ _ _

theorem accReceived_of_write {a : Access} (hw : a.write = 1#1) (s : State) : accReceived a s = [] := by
  simp [accReceived, accRl, hw]

/-- What a register request leaves: its access done, r handed back, BUSY low (R140). -/
def accessDone (a : Access) (r : Result) (s : State) : State := complete r (regAccess a (setBusy s))

/-- A register request inside its envelope is one access, and hands back what RA_STRIP decodes (R140). -/
theorem exec_register {i : Instr} {a : Access} {s : State} (hb : s.busy = false) (hc : checkOf s.cfg i = none)
    (ha : accessOf s.cfg i = some a) (hw : windowOf i = none) :
    exec i s = .next (accessDone a (resultOf (accStrip a (accReceived a s)) i) s) := by
  rw [exec_completes hb hc, bodyOf_register ha hw, answerOf_access ha]
  rfl

/-- An access is one transfer of its bytes, whatever is then handed back (R140). -/
theorem accessDone_frameRequest (a : Access) (r : Result) (s : State) :
    FrameRequest s (accessDone a r s) (accTx a) (accReceived a s) r := by
  obtain ⟨hemitted, hsupplied, -, hcache, henv, hbus, hover⟩ := xfer_frameRequest (accTx a) (accRl a) s
  exact ⟨hemitted, hsupplied, rfl, hcache, henv, hbus, hover⟩

/-- A write receives nothing (R74). -/
theorem accessDone_frameRequest_of_write {a : Access} (hw : a.write = 1#1) (r : Result) (s : State) :
    FrameRequest s (accessDone a r s) (accTx a) [] r :=
  accReceived_of_write hw s ▸ accessDone_frameRequest a r s

/-! ## Reads and writes of n bytes -/

/-- A read sends its command word and nothing else (R73). -/
theorem accTx_readAcc (fn : BitVec 2) (inc : BitVec 1) (addr n : Word) :
    accTx (readAcc fn inc addr n) = cmdBytes (cmdWord 0#1 inc fn addr n) := rfl

/-- A read receives whole groups of four bytes, behind the pad of its function (R73, R151). -/
theorem accRl_readAcc (fn : BitVec 2) (inc : BitVec 1) (addr n : Word) :
    accRl (readAcc fn inc addr n) = roundUp4 n.toNat + (if fn = 1#2 then 4 else 0) := rfl

/-- A write sends its command word, its n bytes and zeros to the next multiple of 4 (R74). -/
theorem accTx_writeAcc (fn : BitVec 2) (inc : BitVec 1) (addr n : Word) (b : List Byte) :
    accTx (writeAcc fn inc addr n b) =
      cmdBytes (cmdWord 1#1 inc fn addr n) ++ b.take n.toNat ++ List.replicate (roundUp4 n.toNat - n.toNat) 0#8 :=
  (List.append_assoc _ _ _).symm

/-- Settles O21: RDN is the access of a read, and RA_STRIP drops the pad. -/
theorem registerReadDropsThePad : Obligations.RegisterReadDropsThePad := by
  intro s fn inc addr n hb hfn hpos hle
  have hc : checkReg fn n = none := checkReg_eq_none_iff.mpr ⟨hfn, hpos, hle⟩
  exact ⟨_, accReceived (readAcc fn inc addr n) s, exec_register hb hc rfl rfl,
    (accReceived_length _ s).trans (accRl_readAcc fn inc addr n), rfl,
    accTx_readAcc fn inc addr n ▸ accessDone_frameRequest _ _ s⟩

/-- Settles O22: WRN is the access of a write. -/
theorem registerWritePadsWithZeros : Obligations.RegisterWritePadsWithZeros := by
  intro s fn inc addr n b hb hfn hpos hle hdata
  have hc : checkData n b (checkReg fn n) = none :=
    (checkData_of_le hdata _).trans (checkReg_eq_none_iff.mpr ⟨hfn, hpos, hle⟩)
  exact ⟨_, exec_register hb hc rfl rfl, rfl,
    accTx_writeAcc fn inc addr n b ▸ accessDone_frameRequest_of_write rfl _ s⟩

/-! ## The width helpers -/

/-- fromLE_8 of the bytes behind a pad is the first of them (R123). -/
theorem fromLE8_drop (b : List Byte) (k : Nat) : fromLE8 (b.drop k) = b.getD k 0#8 := by
  simp [fromLE8, leTerm, List.getD_eq_getElem?_getD]

theorem roundUp4_of_le_four {n : Nat} (hpos : 1 ≤ n) (hle : n ≤ 4) : roundUp4 n = 4 := by
  unfold roundUp4
  omega

/-- A read helper is one frame with four bytes in behind the pad, and decodes those (R143 to R145, R151). -/
theorem exec_readHelper {i : Instr} {fn : BitVec 2} {addr n : Word} {s : State} (hb : s.busy = false)
    (hpos : 1 ≤ n.toNat) (hle : n.toNat ≤ 4) (hc : checkOf s.cfg i = none)
    (ha : accessOf s.cfg i = some (readAcc fn 1#1 addr n)) (hw : windowOf i = none) :
    ∃ t rx, exec i s = .next t ∧ rx.length = 4 + (if fn = 1#2 then 4 else 0) ∧
      FrameRequest s t (cmdBytes (cmdWord 0#1 1#1 fn addr n)) rx
        (resultOf (rx.drop (if fn = 1#2 then 4 else 0)) i) := by
  have hlen := accReceived_length (readAcc fn 1#1 addr n) s
  rw [accRl_readAcc, roundUp4_of_le_four hpos hle] at hlen
  exact ⟨_, _, exec_register hb hc ha hw, hlen, accessDone_frameRequest _ _ s⟩

/-- Settles O23: each helper is the access of a read of its width. -/
theorem readHelpersDecodeLittleEndian : Obligations.ReadHelpersDecodeLittleEndian := by
  intro s fn addr hb hfn
  obtain ⟨hc1, hc2, hc4⟩ := checkReg_widths hfn
  simp only [← fromLE8_drop]
  exact ⟨exec_readHelper hb (by decide) (by decide) hc1 rfl rfl,
    exec_readHelper hb (by decide) (by decide) hc2 rfl rfl,
    exec_readHelper hb (by decide) (by decide) hc4 rfl rfl⟩

theorem accTx_writeAcc_toLE8 (fn : BitVec 2) (inc : BitVec 1) (addr : Word) (v : Byte) :
    accTx (writeAcc fn inc addr 1#32 (toLE8 v)) =
      cmdBytes (cmdWord 1#1 inc fn addr 1#32) ++ [v, 0#8, 0#8, 0#8] := by
  simp [accTx_writeAcc, toLE8, roundUp4, List.replicate]

theorem accTx_writeAcc_toLE16 (fn : BitVec 2) (inc : BitVec 1) (addr : Word) (v : BitVec 16) :
    accTx (writeAcc fn inc addr 2#32 (toLE16 v)) =
      cmdBytes (cmdWord 1#1 inc fn addr 2#32) ++ [v.extractLsb' 0 8, v.extractLsb' 8 8, 0#8, 0#8] := by
  simp [accTx_writeAcc, toLE16, byteOf_eq_extractLsb', roundUp4, List.replicate]

theorem accTx_writeAcc_toLE32 (fn : BitVec 2) (inc : BitVec 1) (addr v : Word) :
    accTx (writeAcc fn inc addr 4#32 (toLE32 v)) =
      cmdBytes (cmdWord 1#1 inc fn addr 4#32) ++
        [v.extractLsb' 0 8, v.extractLsb' 8 8, v.extractLsb' 16 8, v.extractLsb' 24 8] := by
  simp [accTx_writeAcc, toLE32, byteOf_eq_extractLsb', roundUp4]

/-- Settles O24: each helper is the access of a write of its width, with the bytes of the value as data. -/
theorem writeHelpersSendLittleEndian : Obligations.WriteHelpersSendLittleEndian := by
  intro s fn addr hb hfn
  obtain ⟨hc1, hc2, hc4⟩ := checkReg_widths hfn
  simp only [← accTx_writeAcc_toLE8, ← accTx_writeAcc_toLE16, ← accTx_writeAcc_toLE32]
  exact ⟨fun v => ⟨_, exec_register hb hc1 rfl rfl, accessDone_frameRequest_of_write rfl _ s⟩,
    fun v => ⟨_, exec_register hb hc2 rfl rfl, accessDone_frameRequest_of_write rfl _ s⟩,
    fun v => ⟨_, exec_register hb hc4 rfl rfl, accessDone_frameRequest_of_write rfl _ s⟩⟩

/-- A read helper leaves what RDN with its length leaves, but for the decoded result (R91). -/
theorem readHelper_expands {i : Instr} {fn : BitVec 2} {addr n : Word} {s : State} (hb : s.busy = false)
    (hn : checkReg fn n = none) (hc : checkOf s.cfg i = none)
    (ha : accessOf s.cfg i = some (readAcc fn 1#1 addr n)) (hw : windowOf i = none) :
    ∃ t d, exec (.rdn fn 1#1 addr n) s = .next t ∧ t.result = .bytes d ∧
      exec i s = .next { t with result := resultOf d i } :=
  ⟨_, _, exec_register hb hn rfl rfl, rfl, exec_register hb hc ha hw⟩

/-- WRN with enough data is the access of a write under the checks of its length and function alone (R91, R142). -/
theorem exec_wrn_eq_performReg {n : Word} {b : List Byte} (h : n.toNat ≤ b.length) (fn : BitVec 2) (inc : BitVec 1)
    (addr : Word) (s : State) :
    exec (.wrn fn inc addr n b) s =
      performReg (checkReg fn n) (writeAcc fn inc addr n b) (fun _ => .none) s := by
  rw [← checkData_of_le h (checkReg fn n)]
  rfl

/-- Settles O30: a helper and its primitive are the same access under the same check, and differ in the decoding of the
result alone. -/
theorem helpersExpandToThePrimitives : Obligations.HelpersExpandToThePrimitives := by
  intro s fn addr hb hfn
  obtain ⟨hc1, hc2, hc4⟩ := checkReg_widths hfn
  exact ⟨readHelper_expands hb hc1 hc1 rfl rfl, readHelper_expands hb hc2 hc2 rfl rfl,
    readHelper_expands hb hc4 hc4 rfl rfl,
    fun v => (exec_wrn_eq_performReg (b := toLE8 v) le_rfl fn 1#1 addr s).symm,
    fun v => (exec_wrn_eq_performReg (b := toLE16 v) le_rfl fn 1#1 addr s).symm,
    fun v => (exec_wrn_eq_performReg (b := toLE32 v) le_rfl fn 1#1 addr s).symm⟩

/-! ## The swapped pair -/

theorem accTx_readAccS (fn : BitVec 2) (addr : Word) :
    accTx (readAccS fn addr) = swap16 (cmdBytes (cmdWord 0#1 1#1 fn addr 4#32)) := rfl

theorem accTx_writeAccS (fn : BitVec 2) (addr v : Word) :
    accTx (writeAccS fn addr v) = swap16 (cmdBytes (cmdWord 1#1 1#1 fn addr 4#32) ++ toLE32 v) := by
  have hdata : accData (writeAccS fn addr v) = toLE32 v := by
    simp [accData, writeAccS, writeAcc, toLE32, roundUp4, zeros]
  rw [accTx, hdata]
  rfl

theorem accRl_readAccS (fn : BitVec 2) (addr : Word) : accRl (readAccS fn addr) = 4 + (if fn = 1#2 then 4 else 0) :=
  accRl_readAcc fn 1#1 addr 4#32

/-- Settles O25: the pair is accesses in swapped order, with one swap on the way out and one in RA_STRIP. -/
theorem swappedPairExchangesBytes : Obligations.SwappedPairExchangesBytes := by
  intro s fn addr hb hfn
  obtain ⟨-, -, hc⟩ := checkReg_widths hfn
  refine ⟨⟨_, accReceived (readAccS fn addr) s, exec_register hb hc rfl rfl,
      (accReceived_length _ s).trans (accRl_readAccS fn addr), rfl, ?_⟩,
    fun v => ⟨_, exec_register hb hc rfl rfl, rfl, ?_⟩⟩
  · rw [← accTx_readAccS]
    exact accessDone_frameRequest _ _ s
  · rw [← accTx_writeAccS]
    exact accessDone_frameRequest_of_write rfl _ s

end Sys2Proof.Machine

/-! SETWIN (R171, R181, R183): one window write per byte that differs from the byte last emitted. -/
namespace Sys2Proof.Machine
open Safety

/-! ## The window bytes written -/

/-- From s to t exactly the window writes fs went over the wires (R171): none, and nothing was touched, or some, and
the last one left the bus at rest. -/
structure WindowWritten (s t : State) (fs : List FrameEvent) : Prop where
  emitted : Emitted s t fs
  untouched : fs = [] → t = s
  atRest : fs ≠ [] → BusAtRest t

theorem WindowWritten.trans {s t u : State} {fs gs : List FrameEvent} (h : WindowWritten s t fs)
    (k : WindowWritten t u gs) : WindowWritten s u (fs ++ gs) where
  emitted := h.emitted.trans k.emitted
  untouched hnil := by
    obtain ⟨hfs, hgs⟩ := List.append_eq_nil_iff.mp hnil
    rw [k.untouched hgs, h.untouched hfs]
  atRest hne := by
    by_cases hgs : gs = []
    · rw [k.untouched hgs]
      exact h.atRest (by simpa [hgs] using hne)
    · exact k.atRest hgs

/-- A cache byte differs (R171) exactly when it is not the one last emitted (R181). -/
theorem differs_eq_false_iff {s : State} {i : Nat} {c v : Byte} :
    differs s i c v = false ↔ (if s.winValid.getLsbD i then some c else none) = some v := by
  simp [differs]

/-- One window byte: written if it differs, by the frame R181 asks for. -/
theorem windowWritten_byte {s t : State} {i : Nat} {c v : Byte} {reg : BitVec 17} {cache : State → State}
    (h : (differs s i c v = false ∧ t = s) ∨
      (differs s i c v = true ∧ t = cache (regAccess (winRegAcc reg v) s)))
    (hcache : ∀ u, (cache u).frames = u.frames ∧ (cache u).pins = u.pins ∧ (BusAtRest u → BusAtRest (cache u))) :
    WindowWritten s t (emitByte reg (if s.winValid.getLsbD i then some c else none) v) := by
  rcases h with ⟨hd, rfl⟩ | ⟨hd, rfl⟩
  · rw [emitByte, if_pos (differs_eq_false_iff.mp hd)]
    exact ⟨.refl t, fun _ => rfl, fun h => absurd rfl h⟩
  · rw [emitByte, if_neg (mt differs_eq_false_iff.mpr (by simp [hd]))]
    obtain ⟨hframes, hpins, hbus⟩ := hcache (regAccess (winRegAcc reg v) s)
    rw [← accTx_winRegAcc_eq]
    exact ⟨.of_event hframes hpins, nofun, fun _ => hbus ⟨rfl, rfl, rfl⟩⟩

theorem windowWritten_high (a : Word) (s : State) :
    WindowWritten s (winStepHigh a s) (emitByte s.cfg.winRegHigh (lastEmitted s).high (highByte a)) :=
  windowWritten_byte (winStepHigh_cases a s) fun _ => ⟨rfl, rfl, id⟩

theorem windowWritten_med (a : Word) (s : State) :
    WindowWritten s (winStepMed a s) (emitByte s.cfg.winRegMed (lastEmitted s).med (medByte a)) :=
  windowWritten_byte (winStepMed_cases a s) fun _ => ⟨rfl, rfl, id⟩

theorem windowWritten_low (a : Word) (s : State) :
    WindowWritten s (winStepLow a s) (emitByte s.cfg.winRegLow (lastEmitted s).low (lowByte a)) :=
  windowWritten_byte (winStepLow_cases a s) fun _ => ⟨rfl, rfl, id⟩

/-- BW_HIGH leaves what was last emitted of the other two bytes (R183). -/
theorem lastEmitted_winStepHigh (a : Word) (s : State) :
    (lastEmitted (winStepHigh a s)).med = (lastEmitted s).med ∧
      (lastEmitted (winStepHigh a s)).low = (lastEmitted s).low := by
  obtain ⟨-, hvalid, hmed, hlow⟩ := winStepHigh_cache a s
  simp [lastEmitted, hvalid, hmed, hlow, validBit]

theorem lastEmitted_winStepMed_low (a : Word) (s : State) :
    (lastEmitted (winStepMed a s)).low = (lastEmitted s).low := by
  obtain ⟨-, hvalid, -, hlow⟩ := winStepMed_cache a s
  simp [lastEmitted, hvalid, hlow, validBit]

/-- SETWIN sends the window writes R181 asks for, and touches nothing when there are none. -/
theorem windowWritten_setWindow (a : Word) (s : State) :
    WindowWritten s (setWindow a s) (windowWrites s.cfg (lastEmitted s) [a]) := by
  have hmed := windowWritten_med a (winStepHigh a s)
  have hlow := windowWritten_low a (winStepMed a (winStepHigh a s))
  obtain ⟨hlastMed, hlastLow⟩ := lastEmitted_winStepHigh a s
  rw [(winStepHigh_keeps a s).cfg, hlastMed] at hmed
  rw [(winStepMed_keeps a _).cfg, (winStepHigh_keeps a s).cfg, lastEmitted_winStepMed_low, hlastLow] at hlow
  simpa [windowWrites, setWindow] using (windowWritten_high a s).trans (hmed.trans hlow)

/-! ## SETWIN as a request -/

/-- What SETWIN A leaves (R171). -/
def setwinDone (a : Word) (s : State) : State := complete .none (setWindow a (setBusy s))

theorem exec_setwin {s : State} (hb : s.busy = false) (a : Word) : exec (.setwin a) s = .next (setwinDone a s) :=
  exec_completes hb rfl

theorem setwinDone_cacheIs (a : Word) (s : State) : CacheIs (setwinDone a s) a := setWindow_cache a (setBusy s)

theorem setwinDone_emitted (a : Word) (s : State) :
    Emitted s (setwinDone a s) (windowWrites s.cfg (lastEmitted s) [a]) :=
  (windowWritten_setWindow a (setBusy s)).emitted.complete .none

theorem setwinDone_sameEnv (a : Word) (s : State) : SameEnv s (setwinDone a s) := by
  have h := setWindow_keeps a (setBusy s)
  exact ⟨h.pwr, h.resetIn, h.requests, h.chipBits, h.delays, h.cfg⟩

theorem setwinDone_cfg (a : Word) (s : State) : (setwinDone a s).cfg = s.cfg := (setWindow_keeps a (setBusy s)).cfg

theorem setwinDone_drawCount (a : Word) (s : State) : (setwinDone a s).drawCount = s.drawCount :=
  (setWindow_keeps a (setBusy s)).drawCount

/-- SETWIN with nothing to write moves no pin and fills no buffer (R171, log 6). -/
theorem setwinDone_of_nothing_written {a : Word} {s : State} (h : windowWrites s.cfg (lastEmitted s) [a] = []) :
    SamePins s (setwinDone a s) ∧ SameBuffers s (setwinDone a s) := by
  rw [setwinDone, (windowWritten_setWindow a (setBusy s)).untouched h]
  exact ⟨⟨rfl, rfl, rfl, rfl⟩, rfl, rfl, rfl, rfl⟩

/-- Settles O26: SETWIN is its three window bytes in order, each written if it is not the one last emitted. -/
theorem setWindowWritesWhatDiffers : Obligations.SetWindowWritesWhatDiffers := by
  intro s a hb
  exact ⟨setwinDone a s, exec_setwin hb a, setwinDone_emitted a s, ⟨rfl, setwinDone_drawCount a s⟩,
    setwinDone_cacheIs a s, rfl, setwinDone_sameEnv a s, complete_over _ _, setwinDone_of_nothing_written,
    (windowWritten_setWindow a (setBusy s)).atRest⟩

/-! ## A sequence of addresses -/

/-- With a valid cache the bytes last emitted are those of its window (R17). -/
theorem lastEmitted_of_cacheIs {t : State} {a : Word} (h : CacheIs t a) :
    lastEmitted t = { high := some (highByte a), med := some (medByte a), low := some (lowByte a) } := by
  obtain ⟨hh, hm, hl, hv⟩ := h
  simp [lastEmitted, hh, hm, hl, hv]

/-- Settles O43, by induction on the addresses: each SETWIN leaves a cache that says what was last emitted. -/
theorem windowCachingProperty : Obligations.WindowCachingProperty := by
  intro addrs
  induction addrs with
  | nil => exact fun s _ => ⟨s, rfl, (List.append_nil _).symm, nofun⟩
  | cons a rest ih =>
    intro s hb
    obtain ⟨t, ht, hframes, hcache⟩ := ih (setwinDone a s) rfl
    have hrun : setWindows (a :: rest) s = .next t := by rw [setWindows, exec_setwin hb, ← ht]
    refine ⟨t, hrun, ?_, ?_⟩
    · rw [hframes, (setwinDone_emitted a s).1, lastEmitted_of_cacheIs (setwinDone_cacheIs a s),
        setwinDone_cfg]
      simp [windowWrites]
    · cases rest with
      | nil =>
        obtain rfl : setwinDone a s = t := Host.Outcome.next.inj ht
        rintro _ ⟨rfl⟩
        exact setwinDone_cacheIs a s
      | cons b rest => simpa using hcache


/-! ## Window bytes and offset (R170) -/

theorem highByte_toNat (a : Word) : (highByte a).toNat = a.toNat / 2 ^ 24 % 2 ^ 8 := by
  simp [highByte, Nat.shiftRight_eq_div_pow]

theorem medByte_toNat (a : Word) : (medByte a).toNat = a.toNat / 2 ^ 16 % 2 ^ 8 := by
  simp [medByte, Nat.shiftRight_eq_div_pow]

/-- The low window byte is bit 15 at its top (R170, D8). -/
theorem lowByte_eq_ite (a : Word) : lowByte a = if a.getLsbD 15 then 0x80#8 else 0x00#8 := by
  ext k hk
  cases h : a.getLsbD 15 <;> interval_cases k <;> simp_all [lowByte]

theorem lowByte_toNat (a : Word) : (lowByte a).toNat = a.toNat / 2 ^ 15 % 2 * 2 ^ 7 := by
  have hbit : a.getLsbD 15 = decide (a.toNat / 2 ^ 15 % 2 = 1) := Nat.testBit_eq_decide_div_mod_eq
  rw [lowByte_eq_ite, hbit]
  rcases Nat.mod_two_eq_zero_or_one (a.toNat / 2 ^ 15) with h | h <;> rw [h] <;> rfl

/-- Two addresses have the same window bytes exactly when their bits 31:15 agree (R170). -/
theorem sameWindow_iff {a b : Word} : (highByte a = highByte b ∧ medByte a = medByte b ∧ lowByte a = lowByte b) ↔
    a.extractLsb' 15 17 = b.extractLsb' 15 17 := by
  simp only [← BitVec.toNat_inj, highByte_toNat, medByte_toNat, lowByte_toNat, BitVec.extractLsb'_toNat,
    Nat.shiftRight_eq_div_pow]
  omega

/-- Settles O7, in the numbers the bytes and the offset are. -/
theorem windowBytesOfAnAddress : Obligations.WindowBytesOfAnAddress := by
  refine ⟨fun a => ⟨rfl, rfl, lowByte_eq_ite a, winOffset_toNat a⟩, fun _ _ => sameWindow_iff, fun a => ?_⟩
  rw [highByte_toNat, medByte_toNat, lowByte_toNat, winOffset_toNat]
  omega

/-- Settles O44: after SETWIN A the bytes last emitted are those of A, and B has the same. -/
theorem sameWindowEmitsNothing : Obligations.SameWindowEmitsNothing := by
  intro s t a b he hab
  obtain ⟨hb, -⟩ := exec_next he
  obtain rfl : setwinDone a s = t := Host.Outcome.next.inj ((exec_setwin hb a).symm.trans he)
  obtain ⟨hhigh, hmed, hlow⟩ := sameWindow_iff.mpr hab
  have hnothing : windowWrites (setwinDone a s).cfg (lastEmitted (setwinDone a s)) [b] = [] := by
    rw [lastEmitted_of_cacheIs (setwinDone_cacheIs a s)]
    simp [windowWrites, emitByte, hhigh, hmed, hlow]
  obtain ⟨hframes, hpins⟩ := setwinDone_emitted b (setwinDone a s)
  rw [hnothing] at hframes hpins
  exact ⟨_, exec_setwin rfl b, hframes.trans (List.append_nil _), hpins.trans (List.append_nil _)⟩

end Sys2Proof.Machine

/-! The windowed accesses (R91, R173 to R180, R182): SETWIN, then one register access of the backplane function. -/
namespace Sys2Proof.Machine
open Safety

/-! ## The envelope in numbers -/

/-- A windowed access has the envelope of its register access, and ends inside its window (R57, R182). -/
theorem checkWin_eq_none_iff {a n : Word} :
    checkWin a n = none ↔ 1 ≤ n.toNat ∧ n.toNat ≤ 1023 ∧ a.toNat % 0x8000 + n.toNat ≤ 0x8000 := by
  have hwin : windowOk a n = true ↔ a.toNat % 0x8000 + n.toNat ≤ 0x8000 := by
    rw [windowOk, winOffset_toNat]; exact decide_eq_true_iff
  have hreg : checkReg 1#2 n = none ↔ 1 ≤ n.toNat ∧ n.toNat ≤ 1023 := by simp [checkReg_eq_none_iff]
  rw [← and_assoc, ← hwin, ← hreg, checkWin_none, checkReg_none]
  simp [winInEnvelope, regInEnvelope, fnOk]

/-! ## One windowed access as a request -/

/-- Completion between two operations shows in no latch once the whole is complete (R91). -/
theorem accessDone_complete (acc : Access) (q r : Result) (s : State) :
    accessDone acc r (complete q s) = complete r (regAccess acc s) := rfl

/-- A windowed request inside its envelope is SETWIN and then one access, and hands back what RA_STRIP decodes
(R172 to R174). -/
theorem exec_windowed {i : Instr} {acc : Access} {a : Word} {s : State} (hb : s.busy = false)
    (hc : checkOf s.cfg i = none) (ha : accessOf s.cfg i = some acc) (hw : windowOf i = some a) :
    exec i s =
      .next (accessDone acc (resultOf (accStrip acc (accReceived acc (setwinDone a s))) i) (setwinDone a s)) := by
  rw [exec_completes hb hc, bodyOf_windowed ha hw, answerOf_access ha, setwinDone, accessDone_complete]
  rfl

/-- SETWIN and then one frame make a windowed request. -/
theorem windowedRequest_of_frameRequest {a : Word} {s t : State} {tx rx : List Byte} {r : Result}
    (h : FrameRequest (setwinDone a s) t tx rx r) : WindowedRequest s t a tx rx r := by
  obtain ⟨hemitted, ⟨hrx, hdraw⟩, hresult, ⟨hhigh, hmed, hlow, hvalid⟩, henv, hbus, hover⟩ := h
  obtain ⟨hpwr, hreset, hrequests, hchip, hdelays, hcfg⟩ := henv
  obtain ⟨kpwr, kreset, krequests, kchip, kdelays, kcfg⟩ := setwinDone_sameEnv a s
  obtain ⟨khigh, kmed, klow, kvalid⟩ := setwinDone_cacheIs a s
  rw [kchip, setwinDone_drawCount] at hrx
  rw [setwinDone_drawCount] at hdraw
  exact ⟨(setwinDone_emitted a s).trans hemitted, ⟨hrx, hdraw⟩, hresult,
    ⟨hhigh.trans khigh, hmed.trans kmed, hlow.trans klow, hvalid.trans kvalid⟩,
    ⟨hpwr.trans kpwr, hreset.trans kreset, hrequests.trans krequests, hchip.trans kchip, hdelays.trans kdelays,
      hcfg.trans kcfg⟩, hbus, hover⟩

/-! ## Windowed reads and writes -/

/-- A windowed read: SETWIN, then one frame whose four pad bytes are dropped (R173). -/
theorem exec_windowedRead {i : Instr} {a n : Word} {s : State} (hb : s.busy = false) (hc : checkOf s.cfg i = none)
    (ha : accessOf s.cfg i = some (bpReadAcc s.cfg a n)) (hw : windowOf i = some a) :
    ∃ t rx, exec i s = .next t ∧ rx.length = roundUp4 n.toNat + 4 ∧
      WindowedRequest s t a (cmdBytes (cmdWord 0#1 1#1 1#2 ((a &&& 0x7FFF#32) ||| s.cfg.access32Flag.setWidth 32) n)) rx
        (resultOf (rx.drop 4) i) :=
  ⟨_, accReceived (bpReadAcc s.cfg a n) (setwinDone a s), exec_windowed hb hc ha hw, accReceived_length _ _,
    windowedRequest_of_frameRequest (accessDone_frameRequest _ _ _)⟩

/-- Settles O27: each windowed read is SETWIN and the access of a backplane read. -/
theorem windowedReadsSetTheWindowFirst : Obligations.WindowedReadsSetTheWindowFirst := by
  intro s a hb
  simp only [← fromLE8_drop]
  exact ⟨fun n hpos hle hfit => exec_windowedRead hb (checkWin_eq_none_iff.mpr ⟨hpos, hle, hfit⟩) rfl rfl,
    fun hfit => exec_windowedRead (n := 1#32) hb (checkWin_eq_none_iff.mpr ⟨by decide, by decide, hfit⟩) rfl rfl,
    fun hfit => exec_windowedRead (n := 2#32) hb (checkWin_eq_none_iff.mpr ⟨by decide, by decide, hfit⟩) rfl rfl,
    fun hfit => exec_windowedRead (n := 4#32) hb (checkWin_eq_none_iff.mpr ⟨by decide, by decide, hfit⟩) rfl rfl⟩

/-- A windowed write: SETWIN, then one frame and nothing received (R174). -/
theorem exec_windowedWrite {i : Instr} {a n : Word} {b : List Byte} {s : State} (hb : s.busy = false)
    (hc : checkOf s.cfg i = none) (ha : accessOf s.cfg i = some (bpWriteAcc s.cfg a n b)) (hw : windowOf i = some a)
    (hr : ∀ d, resultOf d i = .none) :
    ∃ t, exec i s = .next t ∧ WindowedRequest s t a
      (accTx (writeAcc 1#2 1#1 ((a &&& 0x7FFF#32) ||| s.cfg.access32Flag.setWidth 32) n b)) [] .none :=
  ⟨_, exec_windowed hb hc ha hw, windowedRequest_of_frameRequest
    (hr _ ▸ accessDone_frameRequest_of_write rfl _ _)⟩

/-- Settles O28: each windowed write is SETWIN and the access of a backplane write. -/
theorem windowedWritesSetTheWindowFirst : Obligations.WindowedWritesSetTheWindowFirst := by
  intro s a hb
  simp only [← accTx_writeAcc_toLE8, ← accTx_writeAcc_toLE16, ← accTx_writeAcc_toLE32, ← accTx_writeAcc]
  exact ⟨fun n b hpos hle hdata hfit => exec_windowedWrite hb
      ((checkData_of_le hdata _).trans (checkWin_eq_none_iff.mpr ⟨hpos, hle, hfit⟩)) rfl rfl fun _ => rfl,
    fun hfit _ =>
      exec_windowedWrite hb (checkWin_eq_none_iff.mpr ⟨by decide, by decide, hfit⟩) rfl rfl fun _ => rfl,
    fun hfit _ =>
      exec_windowedWrite hb (checkWin_eq_none_iff.mpr ⟨by decide, by decide, hfit⟩) rfl rfl fun _ => rfl,
    fun hfit _ =>
      exec_windowedWrite hb (checkWin_eq_none_iff.mpr ⟨by decide, by decide, hfit⟩) rfl rfl fun _ => rfl⟩

/-- Settles O29: behind SETWIN the windowed access and the register access are the same access. -/
theorem windowedAccessIsSetWindowThenAccess : Obligations.WindowedAccessIsSetWindowThenAccess := by
  intro s a n hb hpos hle hfit
  have hwin : checkWin a n = none := checkWin_eq_none_iff.mpr ⟨hpos, hle, hfit⟩
  have hreg : checkReg 1#2 n = none := checkReg_eq_none_iff.mpr ⟨.inr rfl, hpos, hle⟩
  refine ⟨setwinDone a s, exec_setwin hb a, ?_, fun b hdata => ?_⟩
  · rw [exec_windowed (i := .bprdn a n) hb hwin rfl rfl, exec_register (i := .rdn _ _ _ n) rfl hreg rfl rfl]
    rfl
  · rw [exec_windowed (i := .bpwrn a n b) hb ((checkData_of_le hdata _).trans hwin) rfl rfl,
      exec_register (i := .wrn _ _ _ n b) rfl ((checkData_of_le hdata _).trans hreg) rfl rfl]
    rfl

end Sys2Proof.Machine

/-! The phases of the window sequencer (R171, R172): where one tick can take it, and which requests
come to BW_ACCESS. -/
namespace Sys2Proof.Machine
open Safety

/-! ## Where a tick takes the window sequencer -/

/-- The phase behind a phase of the window sequencer (R172). -/
def nextWindowPhase (s : State) : Phase :=
  match s.bwPhase with
  | .bwHigh => .bwMed
  | .bwMed => .bwLow
  | .bwLow => afterLow s
  | _ => .idle

theorem nextWindowPhase_eq_idle {s : State} (hhigh : s.bwPhase ≠ .bwHigh) (hmed : s.bwPhase ≠ .bwMed)
    (hlow : s.bwPhase ≠ .bwLow) : nextWindowPhase s = .idle := by
  unfold nextWindowPhase
  split
  · exact absurd ‹_› hhigh
  · exact absurd ‹_› hmed
  · exact absurd ‹_› hlow
  · rfl

/-- What a tick can do to the window sequencer and the request it serves (R172): stay or go to the next phase, keep the
request or drop it on completion. -/
structure WindowAdvances (s t : State) : Prop where
  phase : t.bwPhase = s.bwPhase ∨ t.bwPhase = nextWindowPhase s
  req : t.req = s.req ∨ t.req = none

/-- A move of an inner sequencer. -/
theorem WindowAdvances.of_same {s t : State} (hp : t.bwPhase = s.bwPhase) (hq : t.req = s.req) : WindowAdvances s t :=
  ⟨.inl hp, .inl hq⟩

/-- A move of the window sequencer. -/
theorem WindowAdvances.of_next {s t : State} (hp : t.bwPhase = nextWindowPhase s) (hq : t.req = s.req) :
    WindowAdvances s t :=
  ⟨.inr hp, .inl hq⟩

section
variable (s : State)

theorem tickShiftOut_windowAdvances : WindowAdvances s (tickShiftOut s) := by
  unfold tickShiftOut
  split
  · split <;> exact .of_same rfl rfl
  · exact .of_same rfl rfl

theorem tickShiftIn_windowAdvances : WindowAdvances s (tickShiftIn s) := by
  unfold tickShiftIn
  split
  · split <;> exact .of_same rfl rfl
  · exact .of_same rfl rfl

theorem tickRelease_windowAdvances : WindowAdvances s (tickRelease s) := by
  unfold tickRelease
  simp only
  split <;> exact .of_same rfl rfl

theorem tickPwLow_windowAdvances : WindowAdvances s (tickPwLow s) := by
  unfold tickPwLow
  split <;> exact .of_same rfl rfl

theorem tickEncode_windowAdvances : WindowAdvances s (tickEncode s) := by
  unfold tickEncode
  split <;> exact .of_same rfl rfl

/-- RA_STRIP ends an access: the window sequencer goes on behind it (R140, R183). -/
theorem tickStrip_windowAdvances : WindowAdvances s (tickStrip s) := by
  unfold tickStrip
  simp only
  split
  case h_1 hbw => exact .of_next (by rw [nextWindowPhase, hbw]) rfl
  case h_2 hbw => exact .of_next (by rw [nextWindowPhase, hbw]) rfl
  case h_3 hbw => exact .of_next (by rw [nextWindowPhase, hbw]) rfl
  case h_4 hhigh hmed hlow => exact .of_next (nextWindowPhase_eq_idle hhigh hmed hlow).symm rfl

theorem tickCompare_windowAdvances (diff : Bool) (reg : BitVec 17) (v : Byte) {next : Phase}
    (hnext : next = nextWindowPhase s) : WindowAdvances s (tickCompare diff reg v next s) := by
  unfold tickCompare
  split
  · exact .of_same rfl rfl
  · exact .of_next hnext rfl

theorem tickAccess_windowAdvances (hbw : s.bwPhase = .bwAccess) : WindowAdvances s (tickAccess s) := by
  unfold tickAccess
  split
  · exact .of_same rfl rfl
  · exact .of_next (by rw [nextWindowPhase, hbw]) rfl

theorem tickWindow_windowAdvances : WindowAdvances s (tickWindow s) := by
  unfold tickWindow
  simp only
  split
  case h_1 hbw => exact tickCompare_windowAdvances s _ _ _ (by rw [nextWindowPhase, hbw])
  case h_2 hbw => exact tickCompare_windowAdvances s _ _ _ (by rw [nextWindowPhase, hbw])
  case h_3 hbw => exact tickCompare_windowAdvances s _ _ _ (by rw [nextWindowPhase, hbw])
  case h_4 hbw => exact tickAccess_windowAdvances s hbw
  case h_5 hhigh hmed hlow _ => exact ⟨.inr (nextWindowPhase_eq_idle hhigh hmed hlow).symm, .inr rfl⟩

theorem tickRegister_windowAdvances : WindowAdvances s (tickRegister s) := by
  unfold tickRegister
  split
  · exact tickEncode_windowAdvances s
  · exact tickStrip_windowAdvances s
  · exact tickWindow_windowAdvances s

theorem tick_windowAdvances : WindowAdvances s (tick s) := by
  unfold tick
  split
  · exact .of_same rfl rfl
  · exact tickShiftOut_windowAdvances s
  · exact .of_same rfl rfl
  · exact tickShiftIn_windowAdvances s
  · exact tickRelease_windowAdvances s
  · exact tickPwLow_windowAdvances s
  · exact .of_same rfl rfl
  · exact tickRegister_windowAdvances s

end

/-! ## What every tick keeps -/

/-- What one tick keeps, any number of ticks keeps. -/
theorem ticks_keep {P : State → Prop} (h : ∀ s, P s → P (tick s)) (k : Nat) {s : State} (hs : P s) :
    P (ticks k s) := by
  induction k generalizing s with
  | zero => exact hs
  | succ k ih => exact ih (h s hs)

/-- The window sequencer serves no request that has an access, and is not in BW_ACCESS (R172). -/
structure NoWindowedAccess (s : State) : Prop where
  phase : s.bwPhase ≠ .bwAccess
  access : s.req.bind (accessOf s.cfg) = none

theorem NoWindowedAccess.nextWindowPhase_ne {s : State} (h : NoWindowedAccess s) : nextWindowPhase s ≠ .bwAccess := by
  have hlow : afterLow s = .idle := by rw [afterLow, h.access]
  unfold nextWindowPhase
  split <;> simp [hlow]

theorem NoWindowedAccess.tick {s : State} (h : NoWindowedAccess s) : NoWindowedAccess (tick s) := by
  obtain ⟨hp, hq⟩ := tick_windowAdvances s
  constructor
  · rcases hp with e | e <;> rw [e]
    · exact h.phase
    · exact h.nextWindowPhase_ne
  · rw [(tick_keeps s).cfg]
    rcases hq with e | e <;> rw [e]
    · exact h.access
    · rfl

theorem bwPhase_tick_of_idle {s : State} (h : s.bwPhase = .idle) : (tick s).bwPhase = .idle := by
  rcases (tick_windowAdvances s).phase with e | e
  · exact e.trans h
  · rw [e, nextWindowPhase, h]

/-! ## From acceptance -/

theorem accept_setwin_noWindowedAccess (a : Word) (s : State) : NoWindowedAccess (accept (.setwin a) s) :=
  ⟨nofun, rfl⟩

/-- A request outside the window family leaves the window sequencer where it is (R140). -/
theorem accept_bwPhase {i : Instr} (hw : windowOf i = none) (s : State) : (accept i s).bwPhase = s.bwPhase := by
  cases i <;> simp_all [accept, windowOf, startXfer]

/-- A request of the window family other than SETWIN has an access (R91). -/
theorem accessOf_isSome_of_windowOf {i : Instr} {a : Word} (hw : windowOf i = some a) (hi : i ≠ .setwin a)
    (cfg : Params) : (accessOf cfg i).isSome = true := by
  cases i <;> simp_all [windowOf, accessOf]

/-- A windowed access comes to BW_ACCESS with SETWIN done (R172). -/
theorem accept_reaches_bwAccess {i : Instr} {a : Word} {s : State} (hinv : LatchInv s) (hb : s.busy = false)
    (hw : windowOf i = some a) (hi : i ≠ .setwin a) :
    ∃ acc rl, Reaches (accept i s) (windowState i acc rl .bwAccess (setWindow a (setBusy s))) := by
  obtain ⟨hp, -⟩ := hinv.rest hb
  obtain ⟨-, hc, -⟩ := hinv.busAtRest (by rw [hp]; rfl)
  have hmoves := windowMoves_setWindow (s := setBusy s) hw hc none 0
  rwa [phaseAfterLow, if_pos (accessOf_isSome_of_windowOf hw hi _), ← accept_windowed hinv.rest hb hw] at hmoves

/-- Settles O49: BW_ACCESS lies behind BW_LOW alone, and only for a request with an access; behind BW_LOW all three
bytes are cached. -/
theorem onlyWindowedAccessesReachBwAccess : Obligations.OnlyWindowedAccessesReachBwAccess := by
  refine ⟨fun a s k => ?_, fun i s k hinv hb hw => ?_, fun i s t a hinv hw hi he => ?_⟩
  · exact (ticks_keep (fun _ h => h.tick) k (accept_setwin_noWindowedAccess a s)).phase
  · obtain ⟨-, -, hidle, -⟩ := hinv.rest hb
    exact ticks_keep (P := fun s => s.bwPhase = .idle) (fun _ => bwPhase_tick_of_idle) k
      ((accept_bwPhase hw s).trans hidle)
  · obtain ⟨hb, -⟩ := exec_next he
    obtain ⟨acc, rl, k, hk⟩ := accept_reaches_bwAccess hinv hb hw hi
    exact ⟨k, by rw [hk]; rfl, by rw [hk]; exact setWindow_cache a (setBusy s)⟩

end Sys2Proof.Machine

/-! The exceptions that are none (R190, R193, R203): a request completes inside the envelope of a free block, and each
bound it breaks, BUSY first, has a refusal of its own. -/
namespace Sys2Proof.Machine

/-! ## The three answers to a request -/

/-- A request presented while BUSY is 1 is refused as busy (R193, R203). -/
theorem exec_refused_of_busy {s : State} (hb : s.busy = true) (i : Instr) : exec i s = .refused .busy := by
  rw [exec_eq_perform]
  exact perform_refused.mpr (.inl ⟨hb, rfl⟩)

/-- A free block refuses a request under the name its envelope check gives (R203). -/
theorem exec_refused_of_check {i : Instr} {s : State} {r : Refusal} (hb : s.busy = false)
    (hc : checkOf s.cfg i = some r) : exec i s = .refused r := by
  rw [exec_eq_perform]
  exact perform_refused.mpr (.inr ⟨hb, hc⟩)

theorem exec_not_fault (i : Instr) (s : State) (f : Fault) : exec i s ≠ .fault f := by
  rw [exec_eq_perform]
  exact perform_not_fault _ _ _ _ f

theorem exec_completes_iff {i : Instr} {s : State} :
    (∃ t, exec i s = .next t) ↔ s.busy = false ∧ checkOf s.cfg i = none := by
  constructor
  · rintro ⟨t, h⟩
    obtain ⟨hb, hc, -⟩ := exec_next h
    exact ⟨hb, hc⟩
  · rintro ⟨hb, hc⟩
    exact ⟨_, exec_completes hb hc⟩

theorem exec_completes_or_refused (i : Instr) (s : State) :
    (∃ t, exec i s = .next t) ∨ ∃ r, exec i s = .refused r := by
  cases h : exec i s with
  | next t => exact .inl ⟨t, rfl⟩
  | fault f => exact absurd h (exec_not_fault i s f)
  | refused r => exact .inr ⟨r, rfl⟩

/-! ## A busy block -/

/-- While BUSY is 1 and no reset is asserted a step is one tick (R193). -/
theorem step_of_busy {s : State} (hb : s.busy = true) (hr : s.resetIn = false) : step s = .next (tick s) := by
  simp [step, hb, hr]

/-- Settles O12: no tick writes the queue. -/
theorem busyBlockLetsRequestsWait : Obligations.BusyBlockLetsRequestsWait := fun s hb hr =>
  ⟨⟨tick s, step_of_busy hb hr, rfl, (tick_keeps s).requests⟩, exec_refused_of_busy hb⟩

/-! ## The envelope check and the well-formed requests -/

/-- A constant length of 1, 2 or 4 is inside the envelope, and only the function is left to check (R82, R153). -/
theorem regInEnvelope_widths (fn : BitVec 2) :
    regInEnvelope fn 1#32 = fnOk fn ∧ regInEnvelope fn 2#32 = fnOk fn ∧ regInEnvelope fn 4#32 = fnOk fn := by
  simp [regInEnvelope, lenPos, lenFits, lenMax]

/-- Of a windowed access of constant length only the end of the window is left to check (R182). -/
theorem winInEnvelope_widths (a : Word) :
    winInEnvelope a 1#32 = windowOk a 1#32 ∧ winInEnvelope a 2#32 = windowOk a 2#32 ∧
      winInEnvelope a 4#32 = windowOk a 4#32 := by
  simp [winInEnvelope, lenPos, lenFits, lenMax]

/-- The envelope check passes the well-formed requests; a raw transfer has one bound more, which is the parameters'
(R102, R203). -/
theorem checkOf_eq_none_iff {cfg : Params} {i : Instr} :
    checkOf cfg i = none ↔
      i.wellFormed = true ∧ ∀ tx wl rl, i = .xfer tx wl rl → rl.toNat ≤ cfg.xferMax := by
  cases i with
  | xfer tx wl rl => simp [checkOf, Instr.wellFormed, checkXfer_none]
  | pwron | pwroff | setwin => simp [checkOf, Instr.wellFormed]
  | rdn | wrn => simp [checkOf, Instr.wellFormed, checkData_none, checkReg_none]
  | rd8 | rd16 | rd32 | wr8 | wr16 | wr32 | rd32s | wr32s =>
    simp [checkOf, Instr.wellFormed, checkReg_none, regInEnvelope_widths]
  | bprdn | bpwrn => simp [checkOf, Instr.wellFormed, checkData_none, checkWin_none]
  | bprd8 | bprd16 | bprd32 | bpwr8 | bpwr16 | bpwr32 =>
    simp [checkOf, Instr.wellFormed, checkWin_none, winInEnvelope_widths]

/-- Settles O32: a free block completes what the envelope check passes. -/
theorem completesExactlyInsideTheEnvelope : Obligations.CompletesExactlyInsideTheEnvelope := by
  intro i s
  refine ⟨?_, exec_completes_or_refused i s, exec_not_fault i s⟩
  rw [exec_completes_iff, checkOf_eq_none_iff]

/-! ## The checks in numbers, in their order (log 14) -/

theorem lenPos_eq_false_iff {n : Word} : lenPos n = false ↔ n = 0#32 := by simp [lenPos]

theorem lenFits_eq_false_iff {n : Word} : lenFits n = false ↔ 1023 < n.toNat :=
  decide_eq_false_iff_not.trans Nat.not_le

theorem checkReg_eq_ite (fn : BitVec 2) (n : Word) :
    checkReg fn n =
      if fn ≠ 0#2 ∧ fn ≠ 1#2 then some .reservedFunction
      else if n = 0#32 then some .zeroLength
      else if 1023 < n.toNat then some .lengthTooLong
      else none := by
  have hfn : fnOk fn = false ↔ fn ≠ 0#2 ∧ fn ≠ 1#2 := by simp [fnOk]
  simp only [checkReg, hfn, lenPos_eq_false_iff, lenFits_eq_false_iff]

theorem checkWin_eq_ite (a n : Word) :
    checkWin a n =
      if n = 0#32 then some .zeroLength
      else if 1023 < n.toNat then some .lengthTooLong
      else if 0x8000 < a.toNat % 0x8000 + n.toNat then some .windowCrossing
      else none := by
  have hwin : windowOk a n = false ↔ 0x8000 < a.toNat % 0x8000 + n.toNat := by
    simp [windowOk, winOffset_toNat, winSize]
  simp only [checkWin, hwin, lenPos_eq_false_iff, lenFits_eq_false_iff]

/-- A refusal that stands before the data check is not changed by it (log 14). -/
theorem checkData_of_some {earlier : Option Refusal} {r : Refusal} (h : earlier = some r) (n : Word) (b : List Byte) :
    checkData n b earlier = some r := by
  rw [h, checkData]

theorem checkData_of_short {earlier : Option Refusal} {n : Word} {b : List Byte} (h : earlier = none)
    (hshort : b.length < n.toNat) : checkData n b earlier = some .dataTooShort := by
  simp [checkData, dataOk, h, hshort]

theorem checkReg_of_reserved {fn : BitVec 2} (h0 : fn ≠ 0#2) (h1 : fn ≠ 1#2) (n : Word) :
    checkReg fn n = some .reservedFunction := by
  rw [checkReg_eq_ite, if_pos ⟨h0, h1⟩]

theorem checkReg_of_zero {fn : BitVec 2} (hfn : fn = 0#2 ∨ fn = 1#2) : checkReg fn 0#32 = some .zeroLength := by
  rw [checkReg_eq_ite, if_neg (by tauto), if_pos rfl]

theorem ne_zero_of_long {n : Word} (h : 1023 < n.toNat) : n ≠ 0#32 := by bv_omega

theorem checkReg_of_long {fn : BitVec 2} {n : Word} (hfn : fn = 0#2 ∨ fn = 1#2) (h : 1023 < n.toNat) :
    checkReg fn n = some .lengthTooLong := by
  rw [checkReg_eq_ite, if_neg (by tauto), if_neg (ne_zero_of_long h), if_pos h]

theorem checkWin_of_zero (a : Word) : checkWin a 0#32 = some .zeroLength := by
  rw [checkWin_eq_ite, if_pos rfl]

theorem checkWin_of_long {n : Word} (a : Word) (h : 1023 < n.toNat) : checkWin a n = some .lengthTooLong := by
  rw [checkWin_eq_ite, if_neg (ne_zero_of_long h), if_pos h]

theorem checkWin_of_crossing {a n : Word} (hpos : 1 ≤ n.toNat) (hle : n.toNat ≤ 1023)
    (h : 0x8000 < a.toNat % 0x8000 + n.toNat) : checkWin a n = some .windowCrossing := by
  rw [checkWin_eq_ite, if_neg (by bv_omega), if_neg (by omega), if_pos h]

theorem checkXfer_of_short {tx : List Byte} {wl : Word} (cfg : Params) (rl : Word) (h : tx.length < wl.toNat) :
    checkXfer cfg tx wl rl = some .sendTooLong := by
  simp [checkXfer, sendOk, h]

theorem checkXfer_of_long {cfg : Params} {tx : List Byte} {wl rl : Word} (hwl : wl.toNat ≤ tx.length)
    (h : cfg.xferMax < rl.toNat) : checkXfer cfg tx wl rl = some .receiveTooLong := by
  simp [checkXfer, sendOk, hwl, h]

/-- Settles O33: the envelope check of each request answers with the bound that is broken. -/
theorem refusalsNameTheBrokenBound : Obligations.RefusalsNameTheBrokenBound := by
  intro s hb
  have refuse {i : Instr} {r : Refusal} : checkOf s.cfg i = some r → exec i s = .refused r := exec_refused_of_check hb
  refine ⟨?reserved, ?regZero, ?regLong, ?regData, ?winZero, ?winLong, ?winCrossing, ?winData, ?crossing16,
    ?crossing32, ?sendLong, ?receiveLong⟩
  case reserved =>
    intro fn addr h0 h1
    have hreg := checkReg_of_reserved h0 h1
    exact ⟨fun _ n => refuse (hreg n), fun _ n b => refuse (checkData_of_some (hreg n) n b), refuse (hreg _),
      refuse (hreg _), refuse (hreg _), refuse (hreg _), fun _ => refuse (hreg _), fun _ => refuse (hreg _),
      fun _ => refuse (hreg _), fun _ => refuse (hreg _)⟩
  case regZero =>
    exact fun _ _ _ b hfn =>
      ⟨refuse (checkReg_of_zero hfn), refuse (checkData_of_some (checkReg_of_zero hfn) 0#32 b)⟩
  case regLong =>
    exact fun _ _ _ n b hfn hlong =>
      ⟨refuse (checkReg_of_long hfn hlong), refuse (checkData_of_some (checkReg_of_long hfn hlong) n b)⟩
  case regData =>
    exact fun _ _ _ _ _ hfn hpos hle hshort =>
      refuse (checkData_of_short (checkReg_eq_none_iff.mpr ⟨hfn, hpos, hle⟩) hshort)
  case winZero =>
    exact fun a b => ⟨refuse (checkWin_of_zero a), refuse (checkData_of_some (checkWin_of_zero a) 0#32 b)⟩
  case winLong =>
    exact fun a n b hlong =>
      ⟨refuse (checkWin_of_long a hlong), refuse (checkData_of_some (checkWin_of_long a hlong) n b)⟩
  case winCrossing =>
    intro a n b hpos hle hcross
    have hwin := checkWin_of_crossing hpos hle hcross
    exact ⟨refuse hwin, refuse (checkData_of_some hwin n b)⟩
  case winData =>
    exact fun _ _ _ hpos hle hfit hshort =>
      refuse (checkData_of_short (checkWin_eq_none_iff.mpr ⟨hpos, hle, hfit⟩) hshort)
  case crossing16 =>
    intro a hcross
    have hwin : checkWin a 2#32 = some .windowCrossing := checkWin_of_crossing (by decide) (by decide) hcross
    exact ⟨refuse hwin, fun _ => refuse hwin⟩
  case crossing32 =>
    intro a hcross
    have hwin : checkWin a 4#32 = some .windowCrossing := checkWin_of_crossing (by decide) (by decide) hcross
    exact ⟨refuse hwin, fun _ => refuse hwin⟩
  case sendLong => exact fun _ _ rl hlong => refuse (checkXfer_of_short s.cfg rl hlong)
  case receiveLong => exact fun _ _ _ hwl hlong => refuse (checkXfer_of_long hwl hlong)

end Sys2Proof.Machine

/-! Block reset and the power line as hazards (R210, R220, R224, R231): a reset at any moment, the stale cache behind a
power cycle, and transfers that nothing gates. -/
namespace Sys2Proof.Machine
open Safety

/-! ## Block reset -/

/-- With the reset input asserted a step is a block reset, whatever else the block was doing (R193, R210). -/
theorem step_of_resetIn {s : State} (hr : s.resetIn = true) : step s = .next (blockReset s) := by
  simp [step, resetStep, hr]

/-- Settles O13: the step is a block reset, which writes out its values and its events. -/
theorem blockResetOverridesEverything : Obligations.BlockResetOverridesEverything := by
  intro s hr
  have hover : Over (blockReset s) := ⟨rfl, rfl, rfl, rfl, rfl, rfl, rfl, rfl, rfl⟩
  exact ⟨blockReset s, step_of_resetIn hr, rfl, rfl, rfl, ⟨rfl, rfl, rfl⟩, hover, rfl, rfl, rfl, rfl, rfl, rfl,
    rfl, rfl⟩

/-! ## The pulses of a request -/

/-- The release of select makes no clock pulse (R106, R231). -/
theorem pulses_xferPins (tx rx : List Byte) : pulses (xferPins tx rx) = 8 * (tx.length + rx.length) := by
  have hrelease : pulses [.sel (!selActive)] = 0 := rfl
  rw [xferPins_eq_shiftPins, pulses_append, pulses_shiftPins, hrelease, Nat.add_zero]

/-- The pins of frame-grain events pulse eight times a byte; a power event moves no byte (R231). -/
theorem pulses_flatMap_framePins (fs : List FrameEvent) : pulses (fs.flatMap framePins) = 8 * bytesMoved fs := by
  induction fs with
  | nil => rfl
  | cons f fs ih =>
    rw [List.flatMap_cons, pulses_append, ih]
    cases f with
    | frame tx rx => rw [framePins, pulses_xferPins, bytesMoved, Nat.mul_add 8 (tx.length + rx.length)]
    | power l => exact Nat.zero_add _

/-- Settles O41: the pins added are those of the frames added. -/
theorem clockPulsesCountTheBytes : Obligations.ClockPulsesCountTheBytes := by
  intro i s t he
  obtain ⟨fs, hframes, hpins⟩ := exec_emitted he
  exact ⟨fs.flatMap framePins, fs, hpins, hframes, pulses_flatMap_framePins fs⟩

/-! ## The stale cache -/

/-- PWRON ends in a power event, behind which nothing is known but that the chip is on (R27, R220). -/
theorem chipWindow_pwronHighState (s : State) :
    chipWindow s.cfg (pwronHighState s).frames = ChipWindow.unknown true := by
  rw [pwronHighState, chipWindow_append]
  rfl

/-- Nothing is written for the window the cache holds (R171, R181). -/
theorem windowWrites_of_cacheIs {t : State} {a : Word} (h : CacheIs t a) :
    windowWrites t.cfg (lastEmitted t) [a] = [] := by
  simp [lastEmitted_of_cacheIs h, windowWrites, emitByte]

/-- Settles O47: PWRON leaves the cache at the window of A, so the access has no window write before its one frame. -/
theorem powerCycleLeavesAStaleCache : Obligations.PowerCycleLeavesAStaleCache := by
  intro s t a hcache he hfit
  obtain ⟨hb, -⟩ := exec_next he
  obtain rfl : complete .none (pwronHighState s) = t := Host.Outcome.next.inj ((exec_pwron hb).symm.trans he)
  refine ⟨chipWindow_pwronHighState s, ?_⟩
  have hcheck : checkWin a 4#32 = none := checkWin_eq_none_iff.mpr ⟨by decide, by decide, hfit⟩
  obtain ⟨u, rx, hu, hlen, ⟨hframes, -⟩, -⟩ := exec_windowedRead (i := .bprd32 a) (n := 4#32)
    (s := complete .none (pwronHighState s)) rfl hcheck rfl rfl
  have hstale : CacheIs (complete .none (pwronHighState s)) a := hcache
  rw [windowWrites_of_cacheIs hstale, List.nil_append] at hframes
  exact ⟨u, rx, hu, hlen, hframes⟩

/-! ## The power line gates nothing -/

/-- The state with the power line at this level and all else as it was. -/
def atPower (level : Bool) (s : State) : State := { s with pwr := level }

section
variable (level : Bool) (s : State)

theorem setBusy_atPower : setBusy (atPower level s) = atPower level (setBusy s) := rfl

theorem complete_atPower (r : Result) : complete r (atPower level s) = atPower level (complete r s) := rfl

theorem xfer_atPower (tx : List Byte) (rl : Nat) : xfer tx rl (atPower level s) = atPower level (xfer tx rl s) := rfl

theorem regAccess_atPower (a : Access) : regAccess a (atPower level s) = atPower level (regAccess a s) := rfl

/-- A window byte is compared, written and cached alike at either level (R171). -/
theorem winStepHigh_atPower (a : Word) : winStepHigh a (atPower level s) = atPower level (winStepHigh a s) := by
  rw [winStepHigh, winStepHigh, apply_ite (atPower level)]
  rfl

theorem winStepMed_atPower (a : Word) : winStepMed a (atPower level s) = atPower level (winStepMed a s) := by
  rw [winStepMed, winStepMed, apply_ite (atPower level)]
  rfl

theorem winStepLow_atPower (a : Word) : winStepLow a (atPower level s) = atPower level (winStepLow a s) := by
  rw [winStepLow, winStepLow, apply_ite (atPower level)]
  rfl

theorem setWindow_atPower (a : Word) : setWindow a (atPower level s) = atPower level (setWindow a s) := by
  simp only [setWindow, winStepHigh_atPower, winStepMed_atPower, winStepLow_atPower]

/-- What a request hands back is read from the bytes it received alone. -/
theorem answerOf_atPower (cfg : Params) (i : Instr) : answerOf cfg i (atPower level s) = answerOf cfg i s := rfl

/-- Outside the power family no operation reads or moves the power line (R29, R224). -/
theorem bodyOf_atPower (cfg : Params) {i : Instr} (hon : i ≠ .pwron) (hoff : i ≠ .pwroff) :
    bodyOf cfg i (atPower level s) = atPower level (bodyOf cfg i s) := by
  unfold bodyOf
  split
  · exact xfer_atPower level s _ _
  · exact absurd rfl hon
  · exact absurd rfl hoff
  · exact setWindow_atPower level s _
  · split
    · rw [setWindow_atPower, regAccess_atPower]
    · exact regAccess_atPower level s _
    · rfl

end

/-- Settles O50: every operation of the request commutes with a change of the power line. -/
theorem powerLineGatesNothing : Obligations.PowerLineGatesNothing := by
  intro i s t level hon hoff he
  obtain ⟨hb, hc, rfl⟩ := exec_next he
  change exec i (atPower level s) = .next (atPower level _)
  rw [exec_completes (s := atPower level s) hb hc, setBusy_atPower, bodyOf_atPower _ _ _ hon hoff, answerOf_atPower,
    complete_atPower]
  rfl

/-! ## Writes without power -/

/-- A request that completes, PWRON apart, leaves a low power line low (R18, R109). -/
theorem exec_pwr_low {i : Instr} {s t : State} (hon : i ≠ .pwron) (hp : s.pwr = false) (he : exec i s = .next t) :
    t.pwr = false := by
  by_cases hoff : i = .pwroff
  · subst hoff
    obtain ⟨-, -, rfl⟩ := exec_next he
    rfl
  · obtain ⟨hpwr, -⟩ := onlyPowerRequestsMoveThePowerLine i s t hon hoff he
    exact hpwr.trans hp

/-- A request of the window family caches the window of its address, powered or not (R171, R173, R174). -/
theorem bodyOf_cacheIs {i : Instr} {a : Word} (hw : windowOf i = some a) (cfg : Params) (s : State) :
    CacheIs (bodyOf cfg i s) a := by
  have hset : CacheIs (setWindow a s) a := setWindow_cache a s
  cases hacc : accessOf cfg i with
  | none => exact bodyOf_setwin hacc hw ▸ hset
  | some acc => exact bodyOf_windowed hacc hw ▸ hset

theorem exec_cacheIs {i : Instr} {a : Word} {s t : State} (hw : windowOf i = some a) (he : exec i s = .next t) :
    CacheIs t a := by
  obtain ⟨-, -, rfl⟩ := exec_next he
  exact bodyOf_cacheIs hw _ _

/-- Settles O51: the line stays low and the trace says so, and of a chip without power nothing is known. -/
theorem unpoweredWritesGoNowhere : Obligations.UnpoweredWritesGoNowhere := by
  intro i s t hp htraced hon he
  have htraced' : PowerTraced t := powerTraced_kept.exec htraced he
  exact ⟨chipWindow_off t.frames (htraced'.trans (exec_pwr_low hon hp he)), fun _ hw => exec_cacheIs hw he⟩

end Sys2Proof.Machine
